-- ==== Sys2Proof/Word.lean ====
section
/-! DEFINITION. The machine's words: a memory cell and a data register hold a byte, an address and the program
counter hold 16 bits (00_scope R6). -/

namespace Sys2Proof

/-- A data register or a memory cell: 8 bits (R6). -/
abbrev Byte := BitVec 8

/-- A CPU address, and the program counter: 16 bits (R6). -/
abbrev Word := BitVec 16

end Sys2Proof
end

