-- ==== Sys2Proof/Machine/Bits.lean ====
section
/-! DEFINITION. Bit-field and byte helpers of 00_scope R11: concatenation, the two bytes of a word, extension, bit
fields, bit reversal. -/

namespace Sys2Proof

/-- `hi:lo`, that is `(hi << 8) | lo` (R11). -/
def join (hi lo : Byte) : Word := hi ++ lo

/-- `w[15:8]`. -/
def hiByte (w : Word) : Byte := w.extractLsb' 8 8

/-- `w[7:0]`. -/
def loByte (w : Word) : Byte := w.extractLsb' 0 8

/-- `zext_16(b)` (R11). -/
def zext (b : Byte) : Word := b.setWidth 16

/-- `sext_16(b)` (R11): `b` if `b < $80`, else `b + $FF00`. -/
def sext (b : Byte) : Word := b.signExtend 16

/-- The field of `len` bits of `v` whose lowest bit is `lo`. -/
def field {w : Nat} (v : BitVec w) (lo len : Nat) : BitVec len := v.extractLsb' lo len

/-- `v` with the field of `len` bits at `lo` replaced by `x`, every other bit kept. -/
def setField {w len : Nat} (v : BitVec w) (lo : Nat) (x : BitVec len) : BitVec w :=
  (v &&& ~~~((BitVec.allOnes len).setWidth w <<< lo)) ||| (x.setWidth w <<< lo)

/-- `v` with bit `i` set to `b`, every other bit kept. -/
def setBit {w : Nat} (v : BitVec w) (i : Nat) (b : Bool) : BitVec w :=
  if b then v ||| (1#w <<< i) else v &&& ~~~(1#w <<< i)

/-- `bitreverse8` (62_ppu R418): bit k goes to bit 7 - k. -/
def bitReverse8 (b : Byte) : Byte := b.reverse

end Sys2Proof
end

