-- ==== Sys2Proof/Config.lean ====
section
/-! DEFINITION. The named parameters of 00_scope R9 as plain data (`Config`, one value of it stands in `State` and no
step writes it), and the free values of the model, which have no body. The cartridge parameters of R8 stand in the
cartridge (Machine/State.lean). -/

namespace Sys2Proof

/-- `ILLEGAL_POLICY` (R9, decision D2): what a model does on an illegal opcode. -/
inductive IllegalPolicy where
  | nop2
  | refuse
  deriving DecidableEq, Repr

/-- `BRANCH_PAGE_REF` (R9, decision D10): the address whose page a taken branch's target is compared with. -/
inductive BranchPageRef where
  | pc0
  | next
  deriving DecidableEq, Repr

/-- The host and environment parameters of R9 that are not inputs. Statements about every state hold for every value
of every field (log 3). -/
structure Config where
  /-- `RESET_A`: the value of A after a reset (D5). -/
  resetA : Byte
  /-- `RESET_X`: the value of X after a reset (D5). -/
  resetX : Byte
  /-- `RESET_Y`: the value of Y after a reset (D5). -/
  resetY : Byte
  illegalPolicy : IllegalPolicy
  branchPageRef : BranchPageRef
  /-- `STATUS_LOW5`: bits 4:0 of the value a PPUSTATUS read returns (D19). -/
  statusLow5 : BitVec 5
  /-- `M4_PRG_RAM`: whether an M4 cartridge has 8 KiB of RAM at $6000 to $7FFF (D25). -/
  m4PrgRam : Bool
  /-- `PULSE1_VOLUME`, `PULSE2_VOLUME`, `NOISE_VOLUME`: the mixing weights (D26). -/
  pulse1Volume : Rat
  pulse2Volume : Rat
  noiseVolume : Rat
  /-- `SAMPLE_RATE` in samples a second and the factor `SPEED` (D26). -/
  sampleRate : Rat
  speed : Rat
  deriving DecidableEq, Repr

/-- The parameters that `State.reset` carries: the spec's default where R9 names one (`nop2`, `pc0`, `STATUS_LOW5` 0,
no M4 RAM); the other values are DESIGN CHOICE (unsafe, logs 4 and 14). -/
def Config.default : Config where
  resetA := 0
  resetX := 0
  resetY := 0
  illegalPolicy := .nop2
  branchPageRef := .pc0
  statusLow5 := 0
  m4PrgRam := false
  pulse1Volume := 0
  pulse2Volume := 0
  noiseVolume := 0
  sampleRate := 44100
  speed := 1

/-- FREE VALUE: what the scratch latch `temp` (10_state R30) holds after the n-th boundary event. The spec names its
role and no value (log 8). DESIGN CHOICE, safe. -/
opaque Config.freeTemp : Nat → Word

/-- FREE VALUE: the row of a sprite's pattern where the difference of 62_ppu R418 is negative, which the unsigned
arithmetic of 00_scope R11 gives no value (log 16). DESIGN CHOICE, safe. -/
opaque Config.freeSpriteRow : Int → Word

/-- FREE VALUE: `time_per_ppu_clock` at SPEED 0, a quotient that 61_bus R360 does not state (log 14). DESIGN CHOICE,
safe. -/
opaque Config.freeClockTime : Rat

/-- FREE VALUE: `time_per_sample` at SAMPLE_RATE 0, a quotient that 61_bus R360 does not state (log 14). DESIGN CHOICE,
safe. -/
opaque Config.freeSampleTime : Rat

/-- `PALETTE_RGB` (R9, D20): the host's map from a 6-bit colour index to a red, green, blue triple; not in the spec,
so it has no body (log 30). Safe.
The spec says "RGB triple" and gives no width of a component. DESIGN CHOICE (log 30): 8 bits each; unsafe for a claim
about a component's range, safe for every other claim. -/
opaque Config.paletteRgb : BitVec 6 → Byte × Byte × Byte

end Sys2Proof
end

