-- ==== Sys2Proof/Machine/State.lean ====
section
/-! DEFINITION. The state of the machine as plain data: everything 10_state lists, under its own name; the reasons a
step can stop; and the state right after reset. -/

namespace Sys2Proof.Machine

/-- A byte store (RAM, PRG, CHR, OAM, nametables, palette, framebuffer): (address, byte) pairs with addresses strictly
rising and no byte 0 listed; an unlisted cell reads 0 (log 7). The operations are in Machine/Memory.lean. -/
abbrev Memory := List Host.Cell

/-- The CPU's registers and hidden latches (10_state R20 to R30). -/
structure Cpu where
  a : Byte
  x : Byte
  y : Byte
  /-- `S`, the stack pointer (R23). -/
  sp : Byte
  pc : Word
  /-- `P`: C Z I D B U V N from bit 0 (R26); its bits are read and written in Machine/Flags.lean. -/
  p : Byte
  opcode : Byte
  inputAlu : Byte
  temp : Word
  absoluteAddr : Word
  relativeAddr : Word
  remainingCycles : Nat
  totalCycleCount : Nat
  deriving DecidableEq, Repr

/-- The OAM DMA engine (10_state R35). -/
structure Dma where
  page : Byte
  addr : Byte
  data : Byte
  dummy : Bool
  transfer : Bool
  deriving DecidableEq, Repr

/-- One unit of the scanline sprite cache: `sprite[i]` and its two shifters (10_state R41). -/
structure SpriteUnit where
  y : Byte
  id : Byte
  attributes : Byte
  x : Byte
  shiftLo : Byte
  shiftHi : Byte
  deriving DecidableEq, Repr

/-- The PPU (10_state R39 to R41). `nametable` is indexed by bank * 1024 + offset, `pattern` by bank * 4096 + offset,
`framebuffer` by scanline * 256 + column. `sprites` holds the eight units (log 16). -/
structure Ppu where
  ctrl : Byte
  mask : Byte
  status : Byte
  v : BitVec 15
  t : BitVec 15
  fineX : BitVec 3
  addressLatch : Bool
  dataBuffer : Byte
  nextTileId : Byte
  nextTileAttrib : Byte
  nextTileLsb : Byte
  nextTileMsb : Byte
  shiftPatternLo : Word
  shiftPatternHi : Word
  shiftAttribLo : Word
  shiftAttribHi : Word
  oam : Memory
  oamAddr : Byte
  sprites : List SpriteUnit
  spriteCount : Nat
  zeroHitPossible : Bool
  zeroDrawing : Bool
  nametable : Memory
  pattern : Memory
  palette : Memory
  scanline : Int
  cycle : Nat
  oddFrame : Bool
  frameComplete : Bool
  nmiLatch : Bool
  framebuffer : Memory
  deriving DecidableEq, Repr

/-- An envelope unit (10_state R42, 63_apu R470). -/
structure Envelope where
  start : Bool
  disable : Bool
  divider : BitVec 4
  decay : BitVec 4
  volume : BitVec 4
  output : BitVec 4
  deriving DecidableEq, Repr

/-- A pulse channel's sweeper (10_state R42, 63_apu R467). -/
structure Sweeper where
  enabled : Bool
  down : Bool
  reload : Bool
  muted : Bool
  shift : BitVec 3
  timer : BitVec 3
  period : BitVec 3
  change : Word
  deriving DecidableEq, Repr

/-- A sequencer (10_state R42, R43): the pulse's duty pattern or the noise LFSR, and its timer (widths: log 26). -/
structure Sequencer where
  sequence : BitVec 32
  reload : Word
  timer : Word
  output : Bool
  deriving DecidableEq, Repr

/-- A pulse channel (10_state R42). `output` is the channel output of 63_apu R466 (log 15). -/
structure Pulse where
  enable : Bool
  halt : Bool
  envelope : Envelope
  lengthCounter : Byte
  sweeper : Sweeper
  sequencer : Sequencer
  output : Bool
  deriving DecidableEq, Repr

/-- The noise channel (10_state R43). `output` counts the sixteenths of 63_apu R476 (log 15). -/
structure Noise where
  enable : Bool
  halt : Bool
  envelope : Envelope
  lengthCounter : Byte
  sequencer : Sequencer
  output : BitVec 4
  deriving DecidableEq, Repr

/-- The APU (10_state R42 to R44). -/
structure Apu where
  pulse1 : Pulse
  pulse2 : Pulse
  noise : Noise
  frameCounter : Nat
  apuClock : Nat
  audioSample : Rat
  deriving DecidableEq, Repr

/-- How the four logical nametables fold onto the two physical ones (00_scope R12, Mirror mode). -/
inductive MirrorMode where
  | horizontal | vertical | oneScreenLo | oneScreenHi | hardwareDefined
  deriving DecidableEq, Repr

/-- Mapper M1, MMC1 (10_state R46, 64_mappers R520). -/
structure Mmc1 where
  load : BitVec 5
  loadCount : Nat
  control : BitVec 5
  chrBank0 : BitVec 5
  chrBank1 : BitVec 5
  prgBank : BitVec 5
  ram : Memory
  deriving DecidableEq, Repr

/-- Mapper M2, UxROM (10_state R46, 64_mappers R530). -/
structure Uxrom where
  prgBankLo : BitVec 4
  prgBankHi : Nat
  deriving DecidableEq, Repr

/-- Mapper M4, MMC3 (10_state R46, 64_mappers R533). `irqActive` is the CPU's `irq_line` (R541); `ram` is reached only
under `M4_PRG_RAM` (R535). -/
structure Mmc3 where
  target : BitVec 3
  prgMode : Bool
  chrInvert : Bool
  reg : Vector Byte 8
  mirror : MirrorMode
  prgRamProtect : Byte
  irqLatch : Byte
  irqCounter : Byte
  irqEnable : Bool
  irqActive : Bool
  ram : Memory
  deriving DecidableEq, Repr

/-- The mapper variant with its state (10_state R45, R46): MAPPER_ID 0, 1, 2 or 4. -/
inductive Mapper where
  | m0
  | m1 (r : Mmc1)
  | m2 (r : Uxrom)
  | m4 (r : Mmc3)
  deriving DecidableEq, Repr

/-- The cartridge: the parameters of 00_scope R8 and one mapper (10_state R45). `headerMirror` true is vertical
(`HEADER_MIRROR` 1). `chr` is the CHR store, or the 8 KiB of CHR RAM when `chrBanks` is 0. -/
structure Cart where
  prgBanks : Nat
  chrBanks : Nat
  prg : Memory
  chr : Memory
  headerMirror : Bool
  trainerPresent : Bool
  mapper : Mapper
  deriving DecidableEq, Repr

/-- The IllegalOpcode event (60_exceptions R303, decision D2): `pc0` and the opcode byte. -/
structure IllegalEvent where
  pc0 : Word
  opcode : Byte
  deriving DecidableEq, Repr

/-- The whole machine. -/
structure State where
  cpu : Cpu
  /-- `RAM[0..2047]` (10_state R34). -/
  ram : Memory
  dma : Dma
  /-- The host inputs `CONTROLLER[0]`, `CONTROLLER[1]` (10_state R36); no step writes them. -/
  controller0 : Byte
  controller1 : Byte
  ctrlShift0 : Byte
  ctrlShift1 : Byte
  systemClock : Nat
  audioTime : Rat
  /-- What the last `tick()` answered: an audio sample is ready (61_bus R341). -/
  sampleReady : Bool
  ppu : Ppu
  apu : Apu
  cart : Cart
  config : Config
  /-- The IllegalOpcode events recorded so far, newest first (the model's own field, log 10). -/
  illegalTrace : List IllegalEvent
  /-- The counter that feeds the free value of `cpu.temp` (the model's own field, log 8). -/
  freeCount : Nat
  deriving DecidableEq, Repr

/-- The faults of the machine: NONE. "No other synchronous exception exists" and no access ever faults (60_exceptions
R304, 20_memory R97). Nobody raises one (safe: there is no behaviour it could hide). -/
inductive Fault where
  deriving DecidableEq, Repr

/-- The reasons a step has no meaning. -/
inductive Refusal where
  /-- An instruction without a meaning: raised by an arm of `exec` that names it. No arm does (safe). -/
  | notModelled (mnemonic : String)
  /-- Raised by ILL when the parameter `ILLEGAL_POLICY` is `refuse` (00_scope R9, 45_flags_system R281): the spec's own
  reading of that policy, "gives these opcodes no meaning instead" (safe). -/
  | illegalOpcode (pc0 : Word) (op : Byte)
  /-- Raised by `step` when the cartridge is not valid (64_mappers R502, 61_bus R366): no machine exists (safe). -/
  | invalidCartridge
  deriving DecidableEq, Repr

/-- The PPU right after reset: every item 0 (10_state R39 to R41, decision D17). -/
def Ppu.reset : Ppu where
  ctrl := 0
  mask := 0
  status := 0
  v := 0
  t := 0
  fineX := 0
  addressLatch := false
  dataBuffer := 0
  nextTileId := 0
  nextTileAttrib := 0
  nextTileLsb := 0
  nextTileMsb := 0
  shiftPatternLo := 0
  shiftPatternHi := 0
  shiftAttribLo := 0
  shiftAttribHi := 0
  oam := []
  oamAddr := 0
  sprites := List.replicate 8 ⟨0, 0, 0, 0, 0, 0⟩
  spriteCount := 0
  zeroHitPossible := false
  zeroDrawing := false
  nametable := []
  pattern := []
  palette := []
  scanline := 0
  cycle := 0
  oddFrame := false
  frameComplete := false
  nmiLatch := false
  framebuffer := []

/-- An envelope at reset (10_state R44). -/
def Envelope.reset : Envelope := ⟨false, false, 0, 0, 0, 0⟩

/-- A pulse channel at reset: everything 0 (10_state R44, decision D18). -/
def Pulse.reset : Pulse where
  enable := false
  halt := false
  envelope := .reset
  lengthCounter := 0
  sweeper := ⟨false, false, false, false, 0, 0, 0, 0⟩
  sequencer := ⟨0, 0, 0, false⟩
  output := false

/-- The noise channel at reset: everything 0 except the LFSR, $DBDB (10_state R43, R44). -/
def Noise.reset : Noise where
  enable := false
  halt := false
  envelope := .reset
  lengthCounter := 0
  sequencer := ⟨0xDBDB, 0, 0, false⟩
  output := 0

/-- The APU right after reset (10_state R44, decision D18). -/
def Apu.reset : Apu := ⟨.reset, .reset, .reset, 0, 0, 0⟩

/-- The DMA engine right after reset: zeros with `dummy` set (10_state R35). -/
def Dma.reset : Dma := ⟨0, 0, 0, true, false⟩

/-- The cartridge that `State.reset` carries: M0, two PRG banks, CHR RAM, horizontal mirroring, no trainer, every cell
0. DESIGN CHOICE (unsafe, log 5): the cartridge is a parameter of the run (00_scope R8) and holds no program here. -/
def Cart.blank : Cart := ⟨2, 0, [], [], false, false, .m0⟩

/-- The CPU right after reset on `Cart.blank` (70_reset R561): PC is the word at $FFFC of a PRG store of zeros. -/
def Cpu.reset : Cpu where
  a := Config.default.resetA
  x := Config.default.resetX
  y := Config.default.resetY
  sp := 0xFD
  pc := 0
  p := 0x20
  opcode := 0
  inputAlu := 0
  temp := 0
  absoluteAddr := 0
  relativeAddr := 0
  remainingCycles := 8
  totalCycleCount := 0

/-- The machine right after the reset that follows its building (70_reset R560, R564), with the parameters of
`Config.default` and the cartridge `Cart.blank`. -/
def State.reset : State where
  cpu := .reset
  ram := []
  dma := .reset
  controller0 := 0
  controller1 := 0
  ctrlShift0 := 0
  ctrlShift1 := 0
  systemClock := 0
  audioTime := 0
  sampleReady := false
  ppu := .reset
  apu := .reset
  cart := .blank
  config := .default
  illegalTrace := []
  freeCount := 0

end Sys2Proof.Machine
end

