-- ==== Sys2Proof/Machine/Memory.lean ====
section
/-! DEFINITION. Reading and writing one byte of a store, and the canonical form that every write keeps (log 7). -/

namespace Sys2Proof.Machine

/-- What a cell that is not listed reads as: 0. Reset RAM is all 0 (10_state R34), and so are the other stores at
reset (70_reset R564); for PRG and CHR ROM the listed cells are the parameter's (log 7). -/
def Memory.unlisted : Byte := 0

/-- The byte at `a`. -/
def Memory.read : Memory → Nat → Byte
  | [], _ => Memory.unlisted
  | (k, b) :: m, a => if k = a then b else Memory.read m a

/-- `m` without any entry for `a`. -/
def Memory.erase : Memory → Nat → Memory
  | [], _ => []
  | (k, b) :: m, a => if k = a then Memory.erase m a else (k, b) :: Memory.erase m a

/-- `m` with the entry `(a, v)` put before the first greater address. -/
def Memory.insert : Memory → Nat → Byte → Memory
  | [], a, v => [(a, v)]
  | (k, b) :: m, a, v => if a < k then (a, v) :: (k, b) :: m else (k, b) :: Memory.insert m a v

/-- `m` with the byte at `a` set to `v`: writing the value of an unlisted cell removes the entry. -/
def Memory.write (m : Memory) (a : Nat) (v : Byte) : Memory :=
  if v = Memory.unlisted then Memory.erase m a else Memory.insert (Memory.erase m a) a v

/-- Every address of `m` is above `a`. -/
def Memory.above (a : Nat) : Memory → Bool
  | [] => true
  | (k, _) :: m => decide (a < k) && Memory.above a m

/-- The canonical form: addresses strictly rising, no entry equal to what an unlisted cell reads as. -/
def Memory.wf : Memory → Bool
  | [] => true
  | (k, b) :: m => decide (b ≠ Memory.unlisted) && Memory.above k m && Memory.wf m

end Sys2Proof.Machine
end

