-- ==== Sys2Proof/Machine/Apu.lean ====
section
/-! DEFINITION. The APU (63_apu): register writes, the frame sequencer, the pulse and noise channels, and the mix. -/

namespace Sys2Proof.Machine

/-- The duty patterns (R452). -/
def dutyPattern (i : BitVec 2) : BitVec 32 :=
  match i.toNat with
  | 0 => 0x40
  | 1 => 0x60
  | 2 => 0x78
  | _ => 0x9F

/-- The length table (R455). -/
def lengthTable : List Byte :=
  [10, 254, 20, 2, 40, 4, 80, 6, 160, 8, 60, 10, 14, 12, 26, 14] ++
  [12, 16, 24, 18, 48, 20, 96, 22, 192, 24, 72, 26, 16, 28, 32, 30]

/-- The noise period table (R457). -/
def noisePeriods : List Word :=
  [0, 4, 8, 16, 32, 64, 96, 128, 160, 202, 254, 380, 508, 1016, 2034, 4068]

/-- `LENGTH[d[7:3]]`. -/
def lengthOf (d : Byte) : Byte := lengthTable.getD (field d 3 5).toNat 0

/-! ## Register writes (R452 to R460) -/

/-- The low six bits of `$4000`, `$4004` and `$400C` that an envelope takes (R452, R456). -/
def Envelope.write (e : Envelope) (d : Byte) : Envelope := { e with disable := d.getLsbD 4, volume := field d 0 4 }

/-- `$4000`, `$4004` (R452). -/
def Pulse.write0 (p : Pulse) (d : Byte) : Pulse :=
  { p with
    sequencer := { p.sequencer with sequence := dutyPattern (field d 6 2) }
    halt := d.getLsbD 5
    envelope := p.envelope.write d }

/-- `$4001`, `$4005` (R453). -/
def Pulse.write1 (p : Pulse) (d : Byte) : Pulse :=
  { p with
    sweeper := { p.sweeper with
      enabled := d.getLsbD 7
      period := field d 4 3
      down := d.getLsbD 3
      shift := field d 0 3
      reload := true } }

/-- `$4002`, `$4006` (R454). -/
def Pulse.write2 (p : Pulse) (d : Byte) : Pulse :=
  { p with sequencer := { p.sequencer with reload := (p.sequencer.reload &&& 0xFF00) ||| zext d } }

/-- `$4003`, `$4007` (R455): the duty phase is not restarted. -/
def Pulse.write3 (p : Pulse) (d : Byte) : Pulse :=
  let reload : Word := ((field d 0 3).setWidth 16 <<< 8) ||| (p.sequencer.reload &&& 0x00FF)
  { p with
    sequencer := { p.sequencer with reload := reload, timer := reload }
    lengthCounter := lengthOf d
    envelope := { p.envelope with start := true } }

/-- `ApuRegWrite` (20_memory R89, 63_apu R452 to R460): every other address of the range is accepted and ignored. -/
def Apu.regWrite (a : Apu) (addr : Word) (d : Byte) : Apu :=
  match addr.toNat with
  | 0x4000 => { a with pulse1 := a.pulse1.write0 d }
  | 0x4001 => { a with pulse1 := a.pulse1.write1 d }
  | 0x4002 => { a with pulse1 := a.pulse1.write2 d }
  | 0x4003 => { a with pulse1 := a.pulse1.write3 d }
  | 0x4004 => { a with pulse2 := a.pulse2.write0 d }
  | 0x4005 => { a with pulse2 := a.pulse2.write1 d }
  | 0x4006 => { a with pulse2 := a.pulse2.write2 d }
  | 0x4007 => { a with pulse2 := a.pulse2.write3 d }
  | 0x400C => { a with noise := { a.noise with halt := d.getLsbD 5, envelope := a.noise.envelope.write d } }
  | 0x400E =>
    { a with noise := { a.noise with
        sequencer := { a.noise.sequencer with reload := noisePeriods.getD (field d 0 4).toNat 0 } } }
  | 0x400F =>
    { a with noise := { a.noise with
        lengthCounter := lengthOf d
        envelope := { a.noise.envelope with start := true } } }
  | 0x4015 =>
    { a with
      pulse1 := { a.pulse1 with enable := d.getLsbD 0 }
      pulse2 := { a.pulse2 with enable := d.getLsbD 1 }
      noise := { a.noise with enable := d.getLsbD 2 } }
  | _ => a

/-! ## Units (R465 to R476) -/

/-- The muting condition (R468). -/
def mutedReload (reload : Word) : Bool := decide (reload < 8) || decide (0x7FF < reload)

/-- The sweeper tracking at each APU tick (R451, R468). -/
def Pulse.trackSweep (p : Pulse) : Pulse :=
  { p with
    sweeper := { p.sweeper with
      change := p.sequencer.reload >>> p.sweeper.shift.toNat
      muted := mutedReload p.sequencer.reload } }

/-- Whether a sweep clock changes the period (R467). -/
def Pulse.sweepActive (p : Pulse) : Bool :=
  decide (p.sweeper.timer = 0) && p.sweeper.enabled && !p.sweeper.muted && decide (0 < p.sweeper.shift) &&
    decide (8 ≤ p.sequencer.reload) && decide (p.sweeper.change < 0x7FF)

/-- `SweepClock(p, ch)` (R467), `ch` 0 for pulse 1 and 1 for pulse 2. -/
def Pulse.sweepClock (p : Pulse) (ch : Word) : Pulse :=
  let delta := p.sweeper.change + ch
  let reload :=
    if p.sweepActive then
      if p.sweeper.down then p.sequencer.reload - delta else p.sequencer.reload + delta
    else p.sequencer.reload
  let restart := decide (p.sweeper.timer = 0) || p.sweeper.reload
  { p with
    sequencer := { p.sequencer with reload := reload }
    sweeper := { p.sweeper with
      timer := if restart then p.sweeper.period else p.sweeper.timer - 1
      reload := if restart then false else p.sweeper.reload
      muted := mutedReload reload } }

/-- `EnvelopeClock` (R470), `loop` the channel's halt bit. -/
def Envelope.clock (e : Envelope) (loop : Bool) : Envelope :=
  let e' :=
    if e.start then { e with start := false, decay := 15, divider := e.volume }
    else if e.divider = 0 then
      { e with divider := e.volume, decay := if e.decay = 0 then (if loop then 15 else 0) else e.decay - 1 }
    else { e with divider := e.divider - 1 }
  { e' with output := if e'.disable then e'.volume else e'.decay }

/-- `LengthClock` (R471). -/
def lengthClock (enable halt : Bool) (n : Byte) : Byte :=
  if enable then (if 0 < n ∧ halt = false then n - 1 else n) else 0

/-- `PulseSeqClock` (R465). -/
def Pulse.seqClock (p : Pulse) : Pulse :=
  if p.enable then
    let timer := p.sequencer.timer - 1
    if timer = 0xFFFF then
      let seq := ((p.sequencer.sequence &&& 1) <<< 7) ||| ((p.sequencer.sequence &&& 0xFE) >>> 1)
      { p with
        sequencer := { p.sequencer with timer := p.sequencer.reload, sequence := seq, output := seq.getLsbD 0 } }
    else { p with sequencer := { p.sequencer with timer := timer } }
  else p

/-- One clock of the noise LFSR (R475). -/
def lfsrNext (s : BitVec 32) : BitVec 32 :=
  let bit := (s &&& 1) ^^^ ((s &&& 2) >>> 1)
  (bit <<< 14) ||| (s >>> 1)

/-- `NoiseSeqClock` (R475). -/
def Noise.seqClock (n : Noise) : Noise :=
  if n.enable then
    let timer := n.sequencer.timer - 1
    if timer = 0xFFFF then
      let s := lfsrNext n.sequencer.sequence
      { n with sequencer := { n.sequencer with timer := n.sequencer.reload, sequence := s, output := s.getLsbD 0 } }
    else { n with sequencer := { n.sequencer with timer := timer } }
  else n

/-- The pulse output (R466). -/
def Pulse.outputNow (p : Pulse) : Bool :=
  p.sequencer.output && decide (0 < p.lengthCounter) && decide (8 ≤ p.sequencer.timer) && !p.sweeper.muted &&
    decide (2 < p.envelope.output)

/-- The noise output in sixteenths (R476). -/
def Noise.outputNow (n : Noise) : BitVec 4 :=
  if 0 < n.lengthCounter ∧ n.sequencer.output = true then n.envelope.output else 0

/-! ## The frame sequencer (R450, R451) -/

/-- The quarter-frame points of R451. -/
def isQuarter (n : Nat) : Bool := n == 3729 || n == 7457 || n == 11186 || n == 14916

/-- The half-frame points of R451. -/
def isHalf (n : Nat) : Bool := n == 7457 || n == 14916

/-- The envelope clocks of a quarter frame. -/
def Apu.quarterFrame (a : Apu) : Apu :=
  { a with
    pulse1 := { a.pulse1 with envelope := a.pulse1.envelope.clock a.pulse1.halt }
    pulse2 := { a.pulse2 with envelope := a.pulse2.envelope.clock a.pulse2.halt }
    noise := { a.noise with envelope := a.noise.envelope.clock a.noise.halt } }

/-- `LengthClock` of a pulse channel. -/
def Pulse.clockLength (p : Pulse) : Pulse := { p with lengthCounter := lengthClock p.enable p.halt p.lengthCounter }

/-- `LengthClock` of the noise channel. -/
def Noise.clockLength (n : Noise) : Noise := { n with lengthCounter := lengthClock n.enable n.halt n.lengthCounter }

/-- The length and sweep clocks of a half frame. -/
def Apu.halfFrame (a : Apu) : Apu :=
  { a with
    pulse1 := a.pulse1.clockLength.sweepClock 0
    pulse2 := a.pulse2.clockLength.sweepClock 1
    noise := a.noise.clockLength }

/-- The sequencers and the outputs at the end of an APU step. -/
def Apu.channels (a : Apu) : Apu :=
  let p1 := a.pulse1.seqClock
  let p2 := a.pulse2.seqClock
  let n := a.noise.seqClock
  { a with
    pulse1 := { p1 with output := p1.outputNow }
    pulse2 := { p2 with output := p2.outputNow }
    noise := { n with output := n.outputNow } }

/-- `ApuStep` (R451). -/
def Apu.step (a : Apu) : Apu :=
  let count := a.frameCounter + 1
  let a := { a with
    pulse1 := a.pulse1.trackSweep
    pulse2 := a.pulse2.trackSweep
    frameCounter := if count = 14916 then 0 else count }
  let a := if isQuarter count then a.quarterFrame else a
  let a := if isHalf count then a.halfFrame else a
  a.channels

/-- `ApuTick` (R450). -/
def Apu.tick (a : Apu) : Apu :=
  let b := if a.apuClock % 6 = 0 then a.step else a
  { b with apuClock := a.apuClock + 1 }

/-! ## Mixing (R480) -/

/-- A Boolean output as the number 0 or 1. -/
def unit (b : Bool) : Rat := if b then 1 else 0

/-- `ApuMix` (R480): an exact rational (log 14). -/
def Apu.mix (a : Apu) (cfg : Config) : Rat :=
  unit a.pulse1.output * cfg.pulse1Volume + unit a.pulse2.output * cfg.pulse2Volume +
    (a.noise.output.toNat : Rat) / 16 * cfg.noiseVolume

end Sys2Proof.Machine
end

