-- ==== Sys2Proof/Machine/Flags.lean ====
section
/-! DEFINITION. The status register P (10_state R26 to R28) and every flag computation of files 40 to 45, on bytes. -/

namespace Sys2Proof.Machine

/-- The flags of P, in the order of their bits (R26). -/
inductive Flag where
  | C | Z | I | D | B | U | V | N
  deriving DecidableEq, Repr

/-- The bit number of a flag (R26, decision D4). -/
def Flag.bit : Flag → Nat
  | .C => 0
  | .Z => 1
  | .I => 2
  | .D => 3
  | .B => 4
  | .U => 5
  | .V => 6
  | .N => 7

/-- `P.f` of a status byte. -/
def flag (p : Byte) (f : Flag) : Bool := p.getLsbD f.bit

/-- `P.f <- b`. -/
def setFlag (p : Byte) (f : Flag) (b : Bool) : Byte := setBit p f.bit b

/-- `SetNZ(v)` (00_scope R11). -/
def setNZ (p v : Byte) : Byte := setFlag (setFlag p .Z (decide (v = 0))) .N (v.getLsbD 7)

/-- The status register after PLP or RTI pulled `v`: `(v & $CF) | $20` (10_state R28, 41 R200). -/
def pulledStatus (v : Byte) : Byte := (v &&& 0xCF) ||| 0x20

/-- The byte PHP pushes: `P | $30` (41 R198). -/
def phpStatus (p : Byte) : Byte := p ||| 0x30

/-- P as an entry pushes it: `B` as given, U and I set (60_exceptions R310, 45 R279). -/
def entryStatus (brk : Bool) (p : Byte) : Byte := setFlag (setFlag (setFlag p .B brk) .U true) .I true

/-- The carry of P as a number. -/
def carry (p : Byte) : Nat := (flag p .C).toNat

/-- ADC on the accumulator `a`, the operand `m` and the status `p`: the result and the status (42 R214). The sum is
exact and the result is its low byte; D is not read (decision D3). -/
def adc (a m p : Byte) : Byte × Byte :=
  let sum := a.toNat + m.toNat + carry p
  let r := BitVec.ofNat 8 sum
  let p := setFlag p .C (decide (255 < sum))
  let p := setFlag p .V (decide ((~~~(a ^^^ m)) &&& (a ^^^ r) &&& 0x80 ≠ 0))
  (r, setNZ p r)

/-- SBC: ADC of the complemented operand (42 R215, decision D32). -/
def sbc (a m p : Byte) : Byte × Byte := adc a (m ^^^ 0xFF) p

/-- CMP, CPX, CPY: the status after comparing the register `r` with `m` (42 R216 to R218). -/
def compare (r m p : Byte) : Byte := setNZ (setFlag p .C (decide (m ≤ r))) (r - m)

/-- BIT: the status after testing `m` against the accumulator `a` (42 R219). -/
def bitTest (a m p : Byte) : Byte :=
  setFlag (setFlag (setFlag p .Z (decide (a &&& m = 0))) .N (m.getLsbD 7)) .V (m.getLsbD 6)

/-- ASL (43 R231): the result and the status. -/
def asl (m p : Byte) : Byte × Byte :=
  let r := m <<< 1
  (r, setNZ (setFlag p .C (m.getLsbD 7)) r)

/-- LSR (43 R232). -/
def lsr (m p : Byte) : Byte × Byte :=
  let r := m >>> 1
  (r, setNZ (setFlag p .C (m.getLsbD 0)) r)

/-- ROL (43 R233): the old carry enters at bit 0. -/
def rol (m p : Byte) : Byte × Byte :=
  let r := (m <<< 1) ||| BitVec.ofNat 8 (carry p)
  (r, setNZ (setFlag p .C (m.getLsbD 7)) r)

/-- ROR (43 R234): the old carry enters at bit 7. -/
def ror (m p : Byte) : Byte × Byte :=
  let r := (BitVec.ofNat 8 (carry p) <<< 7) ||| (m >>> 1)
  (r, setNZ (setFlag p .C (m.getLsbD 0)) r)

/-- INC (43 R235). -/
def inc (m p : Byte) : Byte × Byte := (m + 1, setNZ p (m + 1))

/-- DEC (43 R236). -/
def dec (m p : Byte) : Byte × Byte := (m - 1, setNZ p (m - 1))

end Sys2Proof.Machine
end

