-- ==== Sys2Proof/Machine/Mapper.lean ====
section
/-! DEFINITION. The cartridge and the mappers M0, M1, M2, M4 (64_mappers): the CPU-side and PPU-side address decode,
the register writes, mirroring, and the M4 scanline counter. No operation fails (R503). -/

namespace Sys2Proof.Machine

/-- `PRG_BANKS × 16384` (00_scope R8). -/
def Cart.prgSize (c : Cart) : Nat := c.prgBanks * 16384

/-- `CHR_BANKS × 8192`, or 8192 bytes of RAM when `CHR_BANKS = 0` (00_scope R8). -/
def Cart.chrSize (c : Cart) : Nat := if c.chrBanks = 0 then 8192 else c.chrBanks * 8192

/-- The cartridges for which there is a machine (R502, 61_bus R366): `PRG_BANKS >= 1`, and 1 or 2 for M0. The mapper
number is valid by its type. -/
def Cart.valid (c : Cart) : Bool :=
  match c.mapper with
  | .m0 => c.prgBanks == 1 || c.prgBanks == 2
  | .m1 _ | .m2 _ | .m4 _ => decide (1 ≤ c.prgBanks)

/-- The answer of `cpu_map_read` (R503): not handled, served by the mapper's own RAM, or a PRG offset. -/
inductive CpuMapping where
  | notHandled
  | served (v : Byte)
  | prg (off : Nat)
  deriving DecidableEq, Repr

/-- `addr[14:13]`, the pair of a register write (R522, R533). -/
def addrPair (addr : Word) : BitVec 2 := field addr 13 2

/-- M0's PRG offset (R510). -/
def m0PrgOffset (prgBanks : Nat) (addr : Word) : Nat :=
  if 1 < prgBanks then (addr &&& 0x7FFF).toNat else (addr &&& 0x3FFF).toNat

/-- M1's PRG offset (R523), by `control[3:2]`. -/
def m1PrgOffset (r : Mmc1) (prgBanks : Nat) (addr : Word) : Nat :=
  let low := (addr &&& 0x3FFF).toNat
  let bank := (field r.prgBank 0 4).toNat
  match (field r.control 2 2).toNat with
  | 2 => if addr < 0xC000 then low else bank * 0x4000 + low
  | 3 => if addr < 0xC000 then bank * 0x4000 + low else (prgBanks - 1) * 0x4000 + low
  | _ => (field r.prgBank 1 3).toNat * 0x8000 + (addr &&& 0x7FFF).toNat

/-- M2's PRG offset (R530). -/
def m2PrgOffset (r : Uxrom) (addr : Word) : Nat :=
  (if addr < 0xC000 then r.prgBankLo.toNat else r.prgBankHi) * 0x4000 + (addr &&& 0x3FFF).toNat

/-- M4's 8 KiB bank in the window of `addr` (R544), with `L = 2 × PRG_BANKS - 1`. -/
def m4PrgBank (r : Mmc3) (prgBanks : Nat) (addr : Word) : Nat :=
  let last := 2 * prgBanks - 1
  let r6 := (r.reg[6] &&& 0x3F).toNat
  match (addrPair addr).toNat with
  | 0 => if r.prgMode then last - 1 else r6
  | 1 => (r.reg[7] &&& 0x3F).toNat
  | 2 => if r.prgMode then r6 else last - 1
  | _ => last

/-- M4's PRG offset (R544). -/
def m4PrgOffset (r : Mmc3) (prgBanks : Nat) (addr : Word) : Nat :=
  m4PrgBank r prgBanks addr * 0x2000 + (addr &&& 0x1FFF).toNat

/-- `cpu_map_read` (R503, R510, R521, R523, R530, R535, R544), its offset reduced modulo the store (R504). -/
def Cart.cpuMapRead (c : Cart) (m4PrgRam : Bool) (addr : Word) : CpuMapping :=
  match c.mapper with
  | .m0 =>
    if 0x8000 ≤ addr then .prg (m0PrgOffset c.prgBanks addr % c.prgSize) else .notHandled
  | .m1 r =>
    if 0x8000 ≤ addr then .prg (m1PrgOffset r c.prgBanks addr % c.prgSize)
    else if 0x6000 ≤ addr then .served (r.ram.read (addr &&& 0x1FFF).toNat)
    else .notHandled
  | .m2 r =>
    if 0x8000 ≤ addr then .prg (m2PrgOffset r addr % c.prgSize) else .notHandled
  | .m4 r =>
    if 0x8000 ≤ addr then .prg (m4PrgOffset r c.prgBanks addr % c.prgSize)
    else if 0x6000 ≤ addr ∧ m4PrgRam = true then .served (r.ram.read (addr &&& 0x1FFF).toNat)
    else .notHandled

/-- M1's serial register write (R522): bit 7 restarts, the fifth data write loads the register its address names. -/
def Mmc1.writeReg (r : Mmc1) (addr : Word) (d : Byte) : Mmc1 :=
  if d.getLsbD 7 then { r with load := 0, loadCount := 0, control := r.control ||| 0x0C }
  else
    let load := (r.load >>> 1) ||| ((field d 0 1).setWidth 5 <<< 4)
    if r.loadCount + 1 = 5 then
      let r' := { r with load := 0, loadCount := 0 }
      match (addrPair addr).toNat with
      | 0 => { r' with control := load }
      | 1 => { r' with chrBank0 := load }
      | 2 => { r' with chrBank1 := load }
      | _ => { r' with prgBank := load }
    else { r with load := load, loadCount := r.loadCount + 1 }

/-- M4's register write (R533 to R539): the pair by `addr[14:13]`, even or odd by `addr.0`. -/
def Mmc3.writeReg (r : Mmc3) (addr : Word) (d : Byte) : Mmc3 :=
  match (addrPair addr).toNat, addr.getLsbD 0 with
  | 0, false => { r with target := field d 0 3, prgMode := d.getLsbD 6, chrInvert := d.getLsbD 7 }
  | 0, true => { r with reg := r.reg.set r.target.toNat d }
  | 1, false => { r with mirror := if d.getLsbD 0 then .horizontal else .vertical }
  | 1, true => { r with prgRamProtect := d }
  | 2, false => { r with irqLatch := d }
  | 2, true => { r with irqCounter := 0 }
  | _, false => { r with irqEnable := false, irqActive := false }
  | _, true => { r with irqEnable := true }

/-- `cpu_map_write` (R503): the cartridge after a write the mapper handles, none where it does not. No mapper writes
the PRG store. -/
def Cart.cpuMapWrite (c : Cart) (m4PrgRam : Bool) (addr : Word) (d : Byte) : Option Cart :=
  match c.mapper with
  | .m0 => none
  | .m1 r =>
    if 0x8000 ≤ addr then some { c with mapper := .m1 (r.writeReg addr d) }
    else if 0x6000 ≤ addr then some { c with mapper := .m1 { r with ram := r.ram.write (addr &&& 0x1FFF).toNat d } }
    else none
  | .m2 r =>
    if 0x8000 ≤ addr then some { c with mapper := .m2 { r with prgBankLo := field d 0 4 } } else none
  | .m4 r =>
    if 0x8000 ≤ addr then some { c with mapper := .m4 (r.writeReg addr d) }
    else if 0x6000 ≤ addr ∧ m4PrgRam = true then
      some { c with mapper := .m4 { r with ram := r.ram.write (addr &&& 0x1FFF).toNat d } }
    else none

/-- M1's CHR offset for a cartridge with CHR ROM (R524). -/
def m1ChrOffset (r : Mmc1) (addr : Word) : Nat :=
  if r.control.getLsbD 4 then
    if addr ≤ 0x0FFF then r.chrBank0.toNat * 0x1000 + (addr &&& 0x0FFF).toNat
    else r.chrBank1.toNat * 0x1000 + (addr &&& 0x0FFF).toNat
  else (r.chrBank0 &&& 0x1E).toNat * 0x1000 + (addr &&& 0x1FFF).toNat

/-- M4's CHR bank in the 1 KiB window `w` of the table of R545. -/
def m4ChrBank (r : Mmc3) (w : BitVec 3) : Nat :=
  match w.toNat with
  | 0 => (r.reg[0] &&& 0xFE).toNat
  | 1 => (r.reg[0] ||| 1).toNat
  | 2 => (r.reg[1] &&& 0xFE).toNat
  | 3 => (r.reg[1] ||| 1).toNat
  | 4 => r.reg[2].toNat
  | 5 => r.reg[3].toNat
  | 6 => r.reg[4].toNat
  | _ => r.reg[5].toNat

/-- M4's CHR offset (R545): `chr_invert` exchanges the windows' halves. -/
def m4ChrOffset (r : Mmc3) (addr : Word) : Nat :=
  let w : BitVec 3 := field addr 10 3
  m4ChrBank r (if r.chrInvert then w ^^^ 4 else w) * 0x0400 + (addr &&& 0x03FF).toNat

/-- The CHR offset of `ppu_map_read` for `addr <= $1FFF`, which every mapper handles (R511, R524, R531, R545), reduced
modulo the store (R504). -/
def Cart.chrOffset (c : Cart) (addr : Word) : Nat :=
  let off :=
    match c.mapper with
    | .m0 | .m2 _ => addr.toNat
    | .m1 r => if c.chrBanks = 0 then addr.toNat else m1ChrOffset r addr
    | .m4 r => m4ChrOffset r addr
  off % c.chrSize

/-- The pattern-region read: `CHR[off]` (62_ppu R382). -/
def Cart.chrRead (c : Cart) (addr : Word) : Byte := c.chr.read (c.chrOffset addr)

/-- `ppu_map_write` followed by the store (62_ppu R382): handled only when the CHR store is RAM. -/
def Cart.chrWrite (c : Cart) (addr : Word) (v : Byte) : Option Cart :=
  if c.chrBanks = 0 then some { c with chr := c.chr.write (c.chrOffset addr) v } else none

/-- `mirror_mode()` of the mapper (R511, R526, R531, R534). -/
def Mapper.mirrorMode : Mapper → MirrorMode
  | .m0 | .m2 _ => .hardwareDefined
  | .m1 r =>
    match (field r.control 0 2).toNat with
    | 0 => .oneScreenLo
    | 1 => .oneScreenHi
    | 2 => .vertical
    | _ => .horizontal
  | .m4 r => r.mirror

/-- The mirror mode in force: the mapper's, or the header's where it is hardware-defined (62_ppu R383). -/
def Cart.mirrorMode (c : Cart) : MirrorMode :=
  match c.mapper.mirrorMode with
  | .hardwareDefined => if c.headerMirror then .vertical else .horizontal
  | m => m

/-- `irq_state()`, the CPU's `irq_line` (R503, R541). -/
def Cart.irqState (c : Cart) : Bool :=
  match c.mapper with
  | .m4 r => r.irqActive
  | .m0 | .m1 _ | .m2 _ => false

/-- `irq_clear()` (R542). -/
def Cart.irqClear (c : Cart) : Cart :=
  match c.mapper with
  | .m4 r => { c with mapper := .m4 { r with irqActive := false } }
  | .m0 | .m1 _ | .m2 _ => c

/-- M4's counter at a scanline tick (R540, R541). -/
def Mmc3.scanlineTick (r : Mmc3) : Mmc3 :=
  let n := if r.irqCounter = 0 then r.irqLatch else r.irqCounter - 1
  { r with irqCounter := n, irqActive := r.irqActive || (n == 0 && r.irqEnable) }

/-- `scanline_tick()` (R503, R540): M4's counter; nothing on the others. -/
def Cart.scanlineTick (c : Cart) : Cart :=
  match c.mapper with
  | .m4 r => { c with mapper := .m4 r.scanlineTick }
  | .m0 | .m1 _ | .m2 _ => c

/-- `reset()` of the mapper (R511, R525, R531, R543). Cartridge RAM keeps its contents (70_reset R560). -/
def Cart.reset (c : Cart) : Cart :=
  match c.mapper with
  | .m0 => c
  | .m1 r => { c with mapper := .m1 ⟨0, 0, 0x1C, 0, 0, 0, r.ram⟩ }
  | .m2 _ => { c with mapper := .m2 ⟨0, c.prgBanks - 1⟩ }
  | .m4 r => { c with mapper := .m4 ⟨0, false, false, #v[0, 0, 0, 0, 0, 0, 0, 0], .horizontal, 0, 0, 0, false, false, r.ram⟩ }

end Sys2Proof.Machine
end

