-- ==== Sys2Proof/Machine/Ppu.lean ====
section
/-! DEFINITION. The PPU (62_ppu): its bus and memories, the eight CPU-visible registers, and the dot machine with the
background and sprite pipelines, pixel composition, vblank and the mapper hook. -/

namespace Sys2Proof.Machine

/-! ## Fields of the registers (10_state R39, R40) -/

/-- `CTRL.vramAddressInc`. -/
def Ppu.vramAddressInc (p : Ppu) : Bool := p.ctrl.getLsbD 2
/-- `CTRL.spritePatternTable`. -/
def Ppu.spritePatternTable (p : Ppu) : Bool := p.ctrl.getLsbD 3
/-- `CTRL.bgPatternTable`. -/
def Ppu.bgPatternTable (p : Ppu) : Bool := p.ctrl.getLsbD 4
/-- `CTRL.spriteSize`: 8 by 16 sprites. -/
def Ppu.spriteSize (p : Ppu) : Bool := p.ctrl.getLsbD 5
/-- `CTRL.vblankNmi`. -/
def Ppu.vblankNmi (p : Ppu) : Bool := p.ctrl.getLsbD 7
/-- `MASK.greyscale`. -/
def Ppu.greyscale (p : Ppu) : Bool := p.mask.getLsbD 0
/-- `MASK.showBackgroundLeft`. -/
def Ppu.showBackgroundLeft (p : Ppu) : Bool := p.mask.getLsbD 1
/-- `MASK.showSpritesLeft`. -/
def Ppu.showSpritesLeft (p : Ppu) : Bool := p.mask.getLsbD 2
/-- `MASK.showBackground`. -/
def Ppu.showBackground (p : Ppu) : Bool := p.mask.getLsbD 3
/-- `MASK.showSprites`. -/
def Ppu.showSprites (p : Ppu) : Bool := p.mask.getLsbD 4
/-- Rendering enabled, `R` of R404. -/
def Ppu.rendering (p : Ppu) : Bool := p.showBackground || p.showSprites
/-- `STATUS.spriteOverflow`. -/
def Ppu.spriteOverflow (p : Ppu) : Bool := p.status.getLsbD 5
/-- `STATUS.spriteZeroHit`. -/
def Ppu.spriteZeroHit (p : Ppu) : Bool := p.status.getLsbD 6
/-- `STATUS.vblank`. -/
def Ppu.vblank (p : Ppu) : Bool := p.status.getLsbD 7

/-- `coarseX` of `v` or `t` (10_state R40). -/
def coarseX (v : BitVec 15) : BitVec 5 := field v 0 5
/-- `coarseY`. -/
def coarseY (v : BitVec 15) : BitVec 5 := field v 5 5
/-- `nametableX`. -/
def nametableX (v : BitVec 15) : Bool := v.getLsbD 10
/-- `nametableY`. -/
def nametableY (v : BitVec 15) : Bool := v.getLsbD 11
/-- `fineY`. -/
def fineY (v : BitVec 15) : BitVec 3 := field v 12 3

/-! ## The PPU bus (R380 to R391) -/

/-- The bank of logical nametable `q` under a mirror mode (the table of R383). The hardware-defined mode never reaches
here (`Cart.mirrorMode`); it is read as horizontal. -/
def nametableBank (m : MirrorMode) (q : BitVec 2) : Nat :=
  match m with
  | .horizontal | .hardwareDefined => if q.getLsbD 1 then 1 else 0
  | .vertical => if q.getLsbD 0 then 1 else 0
  | .oneScreenLo => 0
  | .oneScreenHi => 1

/-- The index of `nametable[bank][off]` for a PPU address of the nametable region (R383). -/
def nametableIndex (m : MirrorMode) (addr : Word) : Nat :=
  nametableBank m (field addr 10 2) * 1024 + (addr &&& 0x03FF).toNat

/-- `PalIndex` (R389). -/
def palIndex (addr : Word) : Nat :=
  let i := (addr &&& 0x1F).toNat
  if i = 0x10 ∨ i = 0x14 ∨ i = 0x18 ∨ i = 0x1C then i - 0x10 else i

/-- `PpuRead` (R386): no side effect. -/
def Ppu.read (p : Ppu) (c : Cart) (addr : Word) : Byte :=
  let a := addr &&& 0x3FFF
  if a ≤ 0x1FFF then c.chrRead a
  else if a ≤ 0x3EFF then p.nametable.read (nametableIndex c.mirrorMode a)
  else p.palette.read (palIndex a) &&& (if p.greyscale then 0x30 else 0x3F)

/-- `PpuWrite` (R387). A pattern write that the mapper does not handle falls to the PPU's internal `pattern` (R382). -/
def Ppu.write (p : Ppu) (c : Cart) (addr : Word) (v : Byte) : Ppu × Cart :=
  let a := addr &&& 0x3FFF
  if a ≤ 0x1FFF then
    match c.chrWrite a v with
    | some c' => (p, c')
    | none => ({ p with pattern := p.pattern.write (a &&& 0x1FFF).toNat v }, c)
  else if a ≤ 0x3EFF then
    ({ p with nametable := p.nametable.write (nametableIndex c.mirrorMode a) v }, c)
  else ({ p with palette := p.palette.write (palIndex a) v }, c)

/-! ## CPU-visible registers (R393 to R402) -/

/-- The `v` increment of R401. -/
def Ppu.incrementV (p : Ppu) : Ppu := { p with v := p.v + (if p.vramAddressInc then 32 else 1) }

/-- PPUSTATUS read (R396), with the suppressing read of R427. -/
def Ppu.readStatus (p : Ppu) (statusLow5 : BitVec 5) : Byte × Ppu :=
  ((p.status &&& 0xE0) ||| statusLow5.setWidth 8,
   { p with
      nmiLatch := if p.scanline = 241 ∧ p.cycle = 2 then false else p.nmiLatch
      status := setBit p.status 7 false
      addressLatch := false })

/-- PPUDATA read (R400): buffered below the palette, immediate in it. -/
def Ppu.readData (p : Ppu) (c : Cart) : Byte × Ppu :=
  let b := p.read c (p.v.setWidth 16)
  (if 0x3F00 ≤ (p.v.setWidth 16 &&& 0x3FFF : Word) then b else p.dataBuffer,
   { p with dataBuffer := b }.incrementV)

/-- `PpuRegRead(r)` (the table of R393): write-only registers read $00. -/
def Ppu.regRead (p : Ppu) (c : Cart) (statusLow5 : BitVec 5) (r : BitVec 3) : Byte × Ppu :=
  match r.toNat with
  | 2 => p.readStatus statusLow5
  | 4 => (p.oam.read p.oamAddr.toNat, p)
  | 7 => p.readData c
  | _ => (0, p)

/-- PPUCTRL write (R394). -/
def Ppu.writeCtrl (p : Ppu) (d : Byte) : Ppu := { p with ctrl := d, t := setField p.t 10 (field d 0 2) }

/-- PPUSCROLL write (R399). -/
def Ppu.writeScroll (p : Ppu) (d : Byte) : Ppu :=
  if p.addressLatch then
    { p with t := setField (setField p.t 12 (field d 0 3)) 5 (field d 3 5), addressLatch := false }
  else { p with fineX := field d 0 3, t := setField p.t 0 (field d 3 5), addressLatch := true }

/-- PPUADDR write (R399): high byte of `t` first, then the low byte and `v <- t`. -/
def Ppu.writeAddr (p : Ppu) (d : Byte) : Ppu :=
  if p.addressLatch then
    let t := (p.t &&& 0x7F00) ||| d.setWidth 15
    { p with t := t, v := t, addressLatch := false }
  else { p with t := ((d &&& 0x3F).setWidth 15 <<< 8) ||| (p.t &&& 0x00FF), addressLatch := true }

/-- PPUDATA write (R402). -/
def Ppu.writeData (p : Ppu) (c : Cart) (d : Byte) : Ppu × Cart :=
  let r := p.write c (p.v.setWidth 16) d
  (r.1.incrementV, r.2)

/-- `PpuRegWrite(r, d)` (the table of R393): a write to PPUSTATUS is ignored. -/
def Ppu.regWrite (p : Ppu) (c : Cart) (r : BitVec 3) (d : Byte) : Ppu × Cart :=
  match r.toNat with
  | 0 => (p.writeCtrl d, c)
  | 1 => ({ p with mask := d }, c)
  | 3 => ({ p with oamAddr := d }, c)
  | 4 => ({ p with oam := p.oam.write p.oamAddr.toNat d, oamAddr := p.oamAddr + 1 }, c)
  | 5 => (p.writeScroll d, c)
  | 6 => (p.writeAddr d, c)
  | 7 => p.writeData c d
  | _ => (p, c)

/-! ## Background pipeline (R407 to R415, R419) -/

/-- `x[15:8]` kept, the low byte replaced (R408). -/
def loadLow (x : Word) (b : Byte) : Word := (x &&& 0xFF00) ||| zext b

/-- `LoadBgShifters` (R408). -/
def Ppu.loadBgShifters (p : Ppu) : Ppu :=
  { p with
    shiftPatternLo := loadLow p.shiftPatternLo p.nextTileLsb
    shiftPatternHi := loadLow p.shiftPatternHi p.nextTileMsb
    shiftAttribLo := loadLow p.shiftAttribLo (if p.nextTileAttrib.getLsbD 0 then 0xFF else 0x00)
    shiftAttribHi := loadLow p.shiftAttribHi (if p.nextTileAttrib.getLsbD 1 then 0xFF else 0x00) }

/-- The nametable address `$2000 | (v & $0FFF)` (R409). -/
def Ppu.tileAddr (p : Ppu) : Word := 0x2000 ||| (p.v.setWidth 16 &&& 0x0FFF)

/-- The tile id fetch (R409). -/
def Ppu.fetchTileId (p : Ppu) (c : Cart) : Ppu := { p with nextTileId := p.read c p.tileAddr }

/-- The attribute address of R409. -/
def Ppu.attribAddr (p : Ppu) : Word :=
  0x23C0 ||| (if nametableY p.v then 0x0800 else 0) ||| (if nametableX p.v then 0x0400 else 0) |||
    ((field (coarseY p.v) 2 3).setWidth 16 <<< 3) ||| (field (coarseX p.v) 2 3).setWidth 16

/-- `AttribFetch` (R409): the 2-bit palette of the quadrant. -/
def Ppu.attribFetch (p : Ppu) (c : Cart) : Byte :=
  let a := p.read c p.attribAddr
  let a := if (coarseY p.v).getLsbD 1 then a >>> 4 else a
  let a := if (coarseX p.v).getLsbD 1 then a >>> 2 else a
  a &&& 3

/-- `BgPatternAddr` (R410). -/
def Ppu.bgPatternAddr (p : Ppu) : Word :=
  (if p.bgPatternTable then 0x1000 else 0) + (zext p.nextTileId <<< 4) + (fineY p.v).setWidth 16

/-- `ScrollX` (R412), gated by rendering (R405). -/
def Ppu.scrollX (p : Ppu) : Ppu :=
  if p.rendering then
    if coarseX p.v = 31 then { p with v := setField p.v 0 (0 : BitVec 5) ^^^ 0x0400 }
    else { p with v := setField p.v 0 (coarseX p.v + 1) }
  else p

/-- `ScrollY` (R413), gated by rendering (R405). -/
def Ppu.scrollY (p : Ppu) : Ppu :=
  if p.rendering then
    if fineY p.v < 7 then { p with v := setField p.v 12 (fineY p.v + 1) }
    else
      let v := setField p.v 12 (0 : BitVec 3)
      if coarseY p.v = 29 then { p with v := setField v 5 (0 : BitVec 5) ^^^ 0x0800 }
      else if coarseY p.v = 31 then { p with v := setField v 5 (0 : BitVec 5) }
      else { p with v := setField v 5 (coarseY p.v + 1) }
  else p

/-- `TransferX` (R414), gated by rendering. -/
def Ppu.transferX (p : Ppu) : Ppu :=
  if p.rendering then { p with v := setBit (setField p.v 0 (coarseX p.t)) 10 (nametableX p.t) } else p

/-- `TransferY` (R415), gated by rendering. -/
def Ppu.transferY (p : Ppu) : Ppu :=
  if p.rendering then
    { p with v := setBit (setField (setField p.v 12 (fineY p.t)) 5 (coarseY p.t)) 11 (nametableY p.t) }
  else p

/-- `f` applied to the first `n` elements. -/
def mapFirst {α : Type} (f : α → α) : Nat → List α → List α
  | 0, l => l
  | _ + 1, [] => []
  | n + 1, a :: l => f a :: mapFirst f n l

/-- One sprite unit at a shift (R417): its `x` counts down, then its shifters move. -/
def SpriteUnit.step (u : SpriteUnit) : SpriteUnit :=
  if 0 < u.x then { u with x := u.x - 1 } else { u with shiftLo := u.shiftLo <<< 1, shiftHi := u.shiftHi <<< 1 }

/-- The background half of `UpdateShifters` (R411). -/
def Ppu.shiftBackground (p : Ppu) : Ppu :=
  if p.showBackground then
    { p with
      shiftPatternLo := p.shiftPatternLo <<< 1
      shiftPatternHi := p.shiftPatternHi <<< 1
      shiftAttribLo := p.shiftAttribLo <<< 1
      shiftAttribHi := p.shiftAttribHi <<< 1 }
  else p

/-- The sprite half of `UpdateShifters` (R417). -/
def Ppu.shiftSprites (p : Ppu) : Ppu :=
  if p.showSprites = true ∧ p.cycle ≤ 257 then
    { p with sprites := mapFirst SpriteUnit.step p.spriteCount p.sprites }
  else p

/-- The eight-dot fetch pattern of R404, on `(cycle - 1) mod 8`. -/
def Ppu.fetchSlot (p : Ppu) (c : Cart) : Ppu :=
  match (p.cycle - 1) % 8 with
  | 0 => p.loadBgShifters.fetchTileId c
  | 2 => { p with nextTileAttrib := p.attribFetch c }
  | 4 => { p with nextTileLsb := p.read c p.bgPatternAddr }
  | 6 => { p with nextTileMsb := p.read c (p.bgPatternAddr + 8) }
  | 7 => p.scrollX
  | _ => p

/-! ## Sprite pipeline (R416 to R418) -/

/-- The sprite height `h` of R416. -/
def Ppu.spriteHeight (p : Ppu) : Int := if p.spriteSize then 16 else 8

/-- Whether OAM entry `n` intersects the next scanline: `0 <= scanline - OAM[4n] < h` (R416). -/
def Ppu.spriteInRange (p : Ppu) (n : Nat) : Bool :=
  let diff := p.scanline - (p.oam.read (4 * n)).toNat
  decide (0 ≤ diff ∧ diff < p.spriteHeight)

/-- OAM entry `n` in the order y, id, attributes, x (R384), with cleared shifters. -/
def Ppu.oamEntry (p : Ppu) (n : Nat) : SpriteUnit :=
  ⟨p.oam.read (4 * n), p.oam.read (4 * n + 1), p.oam.read (4 * n + 2), p.oam.read (4 * n + 3), 0, 0⟩

/-- `SpriteEvaluate` (R416): the first eight entries in range, the zero-hit candidate, and the overflow flag, which is
set only. Entry 0 is always the first examined, so it is recorded whenever it is in range. -/
def Ppu.spriteEvaluate (p : Ppu) : Ppu :=
  let hits := (List.range 64).filter p.spriteInRange
  let chosen := hits.take 8
  { p with
    sprites := chosen.map p.oamEntry ++ List.replicate (8 - chosen.length) ⟨0xFF, 0xFF, 0xFF, 0xFF, 0, 0⟩
    spriteCount := chosen.length
    zeroHitPossible := p.spriteInRange 0
    status := if 8 < hits.length then setBit p.status 5 true else p.status }

/-- The row of a sprite's pattern (R418): `scanline - y`, counted from the other end when attribute bit 7 is set; a free
value where the difference is negative (log 16). -/
def Ppu.spriteRow (p : Ppu) (u : SpriteUnit) : Word :=
  let row := p.scanline - u.y.toNat
  let r := if u.attributes.getLsbD 7 then p.spriteHeight - 1 - row else row
  if 0 ≤ r then BitVec.ofInt 16 r else Config.freeSpriteRow r

/-- The pattern address of a sprite's row (R418). -/
def Ppu.spriteAddr (p : Ppu) (u : SpriteUnit) : Word :=
  let r := p.spriteRow u
  if p.spriteSize then
    (if u.id.getLsbD 0 then 0x1000 else 0) ||| ((zext (u.id &&& 0xFE) + (r >>> 3)) <<< 4) ||| (r &&& 7)
  else (if p.spritePatternTable then 0x1000 else 0) ||| (zext u.id <<< 4) ||| r

/-- One unit's shifters loaded from its pattern row, flipped by attribute bit 6 (R418). -/
def Ppu.fetchSprite (p : Ppu) (c : Cart) (u : SpriteUnit) : SpriteUnit :=
  let lo := p.read c (p.spriteAddr u)
  let hi := p.read c (p.spriteAddr u + 8)
  if u.attributes.getLsbD 6 then { u with shiftLo := bitReverse8 lo, shiftHi := bitReverse8 hi }
  else { u with shiftLo := lo, shiftHi := hi }

/-- `SpriteFetch` (R418). -/
def Ppu.spriteFetch (p : Ppu) (c : Cart) : Ppu :=
  { p with sprites := mapFirst (p.fetchSprite c) p.spriteCount p.sprites }

/-! ## Pixel composition (R420 to R423) -/

/-- A candidate pixel: its two bits, its palette and, for a sprite, its priority and whether it is unit 0's. -/
structure Pixel where
  pixel : BitVec 2
  pal : BitVec 3
  prio : Bool
  zero : Bool
  deriving DecidableEq, Repr

/-- The two bits that `mux` selects of a high and a low plane. -/
def planeBits (hi lo : Bool) : BitVec 2 := BitVec.ofBool hi ++ BitVec.ofBool lo

/-- The background pixel (R420). -/
def Ppu.bgPixel (p : Ppu) : Pixel :=
  if p.showBackground = true ∧ (p.showBackgroundLeft = true ∨ 9 ≤ p.cycle) then
    let k := 15 - p.fineX.toNat
    ⟨planeBits (p.shiftPatternHi.getLsbD k) (p.shiftPatternLo.getLsbD k),
     (planeBits (p.shiftAttribHi.getLsbD k) (p.shiftAttribLo.getLsbD k)).setWidth 3, false, false⟩
  else ⟨0, 0, false, false⟩

/-- The scan of R421 over the units in use; `first` says that the head of the list is unit 0. -/
def scanSprites (first : Bool) : List SpriteUnit → Pixel → Pixel
  | [], acc => acc
  | u :: us, acc =>
    if u.x = 0 then
      let px : BitVec 2 := planeBits (u.shiftHi.getLsbD 7) (u.shiftLo.getLsbD 7)
      let fg : Pixel := ⟨px, (field u.attributes 0 2).setWidth 3 ||| 4, !u.attributes.getLsbD 5, false⟩
      if px ≠ 0 then { fg with zero := first } else scanSprites false us fg
    else scanSprites false us acc

/-- The foreground pixel (R421). -/
def Ppu.fgPixel (p : Ppu) : Pixel :=
  if p.showSprites = true ∧ (p.showSpritesLeft = true ∨ 9 ≤ p.cycle) then
    scanSprites true (p.sprites.take p.spriteCount) ⟨0, 0, false, false⟩
  else ⟨0, 0, false, false⟩

/-- The combination of R422: the pixel and the palette that are shown. -/
def combine (bg fg : Pixel) : BitVec 2 × BitVec 3 :=
  if bg.pixel = 0 ∧ fg.pixel = 0 then (0, 0)
  else if bg.pixel = 0 then (fg.pixel, fg.pal)
  else if fg.pixel = 0 then (bg.pixel, bg.pal)
  else if fg.prio then (fg.pixel, fg.pal) else (bg.pixel, bg.pal)

/-- The sprite-zero condition of R422, with its left-edge masking. -/
def Ppu.zeroHit (p : Ppu) (bg fg : Pixel) : Bool :=
  decide (bg.pixel ≠ 0) && decide (fg.pixel ≠ 0) && p.zeroHitPossible && fg.zero && p.showBackground &&
    p.showSprites && ((p.showBackgroundLeft && p.showSpritesLeft) || decide (9 ≤ p.cycle))

/-- The palette address of R423, `$3F00 + (pal << 2) + pixel`. -/
def paletteAddr (px : BitVec 2 × BitVec 3) : Word := 0x3F00 + (px.2.setWidth 16 <<< 2) + px.1.setWidth 16

/-- `ComposePixel` (R420 to R423). -/
def Ppu.composePixel (p : Ppu) (c : Cart) : Ppu :=
  let bg := p.bgPixel
  let fg := p.fgPixel
  { p with
    zeroDrawing := fg.zero
    status := if p.zeroHit bg fg then setBit p.status 6 true else p.status
    framebuffer :=
      p.framebuffer.write (p.scanline.toNat * 256 + (p.cycle - 1)) (p.read c (paletteAddr (combine bg fg))) }

/-! ## The dot machine (R403 to R406, R424 to R426) -/

/-- `PreRenderClear` (R425). -/
def Ppu.preRenderClear (p : Ppu) : Ppu :=
  { p with
    status := setBit (setBit (setBit p.status 7 false) 6 false) 5 false
    spriteCount := 0
    sprites := p.sprites.map fun u => { u with shiftLo := 0, shiftHi := 0 } }

/-- `VblankStart` (R424). -/
def Ppu.vblankStart (p : Ppu) : Ppu :=
  { p with status := setBit p.status 7 true, nmiLatch := p.nmiLatch || p.vblankNmi }

/-- The odd-frame skip (R406). -/
def Ppu.skipDot (p : Ppu) : Ppu :=
  if p.scanline = 0 ∧ p.cycle = 0 ∧ p.oddFrame = true ∧ p.rendering = true then { p with cycle := 1 } else p

/-- The clear at dot 1 of the pre-render line. -/
def Ppu.clearPhase (p : Ppu) : Ppu := if p.scanline = -1 ∧ p.cycle = 1 then p.preRenderClear else p

/-- The shift and fetch windows (R407). -/
def Ppu.fetchPhase (p : Ppu) (c : Cart) : Ppu :=
  if (2 ≤ p.cycle ∧ p.cycle ≤ 257) ∨ (321 ≤ p.cycle ∧ p.cycle ≤ 337) then p.shiftBackground.shiftSprites.fetchSlot c
  else p

/-- The address steps at dots 256, 257 and 280 to 304, and the extra tile fetches at dots 338 and 340 between them, in
the order of R404. -/
def Ppu.addressPhase (p : Ppu) (c : Cart) : Ppu :=
  if p.cycle = 256 then p.scrollY
  else if p.cycle = 257 then p.loadBgShifters.transferX
  else if p.cycle = 338 ∨ p.cycle = 340 then p.fetchTileId c
  else if p.scanline = -1 ∧ 280 ≤ p.cycle ∧ p.cycle ≤ 304 then p.transferY
  else p

/-- Sprite evaluation at dot 257 and sprite fetch at dot 340 of scanlines 0 and later. -/
def Ppu.spritePhase (p : Ppu) (c : Cart) : Ppu :=
  if 0 ≤ p.scanline ∧ p.cycle = 257 then p.spriteEvaluate
  else if 0 ≤ p.scanline ∧ p.cycle = 340 then p.spriteFetch c
  else p

/-- The part of R404 that runs on scanlines -1 to 239, in its order. -/
def Ppu.linePhase (p : Ppu) (c : Cart) : Ppu :=
  if -1 ≤ p.scanline ∧ p.scanline ≤ 239 then (((p.skipDot.clearPhase).fetchPhase c).addressPhase c).spritePhase c
  else p

/-- The start of vblank at scanline 241, dot 1. -/
def Ppu.vblankPhase (p : Ppu) : Ppu := if p.scanline = 241 ∧ p.cycle = 1 then p.vblankStart else p

/-- The composed dots: 1 to 256 of scanlines 0 to 239. -/
def Ppu.pixelPhase (p : Ppu) (c : Cart) : Ppu :=
  if 0 ≤ p.scanline ∧ p.scanline ≤ 239 ∧ 1 ≤ p.cycle ∧ p.cycle ≤ 256 then p.composePixel c else p

/-- The mapper hook (R426): dot 260 of scanlines -1 to 239 with rendering enabled. -/
def Ppu.mapperHook (p : Ppu) (c : Cart) : Cart :=
  if p.cycle = 260 ∧ p.scanline ≤ 239 ∧ p.rendering = true then c.scanlineTick else c

/-- The counters at the end of a dot (R403). -/
def Ppu.advance (p : Ppu) : Ppu :=
  if 340 < p.cycle + 1 then
    if 260 < p.scanline + 1 then
      { p with cycle := 0, scanline := -1, frameComplete := true, oddFrame := !p.oddFrame }
    else { p with cycle := 0, scanline := p.scanline + 1 }
  else { p with cycle := p.cycle + 1 }

/-- What a dot does to the PPU before its counters advance (R404). -/
def Ppu.dot (p : Ppu) (c : Cart) : Ppu := (p.linePhase c).vblankPhase.pixelPhase c

/-- `PpuTick` (R404): one dot of the PPU and the cartridge's counter. -/
def ppuTick (p : Ppu) (c : Cart) : Ppu × Cart :=
  let q := p.dot c
  (q.advance, q.mapperHook c)

end Sys2Proof.Machine
end

