-- ==== Sys2Proof/Machine/Ops.lean ====
section
/-! DEFINITION. The named operations over the whole state: register updates, the CPU bus (20_memory R85, R86), the
controller ports, the DMA engine, the stack, taking an exception and returning from one, and the reset. -/

namespace Sys2Proof.Machine

/-- A step that gives a state. -/
abbrev Result := Host.Outcome State Fault Refusal

/-! ## Register updates -/

/-- `A <- v`. -/
def State.setA (s : State) (v : Byte) : State := { s with cpu := { s.cpu with a := v } }
/-- `X <- v`. -/
def State.setX (s : State) (v : Byte) : State := { s with cpu := { s.cpu with x := v } }
/-- `Y <- v`. -/
def State.setY (s : State) (v : Byte) : State := { s with cpu := { s.cpu with y := v } }
/-- `S <- v`. -/
def State.setSp (s : State) (v : Byte) : State := { s with cpu := { s.cpu with sp := v } }
/-- `P <- v`. -/
def State.setP (s : State) (v : Byte) : State := { s with cpu := { s.cpu with p := v } }
/-- `PC <- v`. -/
def State.setPc (s : State) (v : Word) : State := { s with cpu := { s.cpu with pc := v } }
/-- `remaining_cycles <- n` (60_exceptions R306). -/
def State.setCycles (s : State) (n : Nat) : State := { s with cpu := { s.cpu with remainingCycles := n } }
/-- The latch `input_alu` (10_state R30, log 9). -/
def State.setInputAlu (s : State) (v : Byte) : State := { s with cpu := { s.cpu with inputAlu := v } }
/-- The latch `absolute_addr` (10_state R30, log 9). -/
def State.setAbsoluteAddr (s : State) (v : Word) : State := { s with cpu := { s.cpu with absoluteAddr := v } }
/-- The latch `relative_addr` (10_state R30, log 9). -/
def State.setRelativeAddr (s : State) (v : Word) : State := { s with cpu := { s.cpu with relativeAddr := v } }
/-- The latch `opcode` (10_state R30). -/
def State.setOpcode (s : State) (v : Byte) : State := { s with cpu := { s.cpu with opcode := v } }

/-- The end of an instruction that does not write PC: `PC <- u16(pc0 + size)` (30_encoding R123), its cycles to debit. -/
def State.retire (s : State) (size cycles : Nat) : State :=
  (s.setPc (s.cpu.pc + BitVec.ofNat 16 size)).setCycles cycles

/-! ## The CPU bus -/

/-- `ControllerRead(n)` (61_bus R356): the shifted-out bit in bit 0; `n` true is port 1. -/
def controllerRead (s : State) (n : Bool) : Byte × State :=
  if n then ((s.ctrlShift1 >>> 7), { s with ctrlShift1 := s.ctrlShift1 <<< 1 })
  else ((s.ctrlShift0 >>> 7), { s with ctrlShift0 := s.ctrlShift0 <<< 1 })

/-- `ControllerLatch(n)` (61_bus R357). -/
def controllerLatch (s : State) (n : Bool) : State :=
  if n then { s with ctrlShift1 := s.controller1 } else { s with ctrlShift0 := s.controller0 }

/-- `DmaStart(p)` (61_bus R350). -/
def dmaStart (s : State) (p : Byte) : State := { s with dma := { s.dma with page := p, addr := 0, transfer := true } }

/-- `PpuRegRead` on the state. -/
def ppuRegRead (s : State) (r : BitVec 3) : Byte × State :=
  let x := s.ppu.regRead s.cart s.config.statusLow5 r
  (x.1, { s with ppu := x.2 })

/-- `PpuRegWrite` on the state. -/
def ppuRegWrite (s : State) (r : BitVec 3) (d : Byte) : State :=
  let x := s.ppu.regWrite s.cart r d
  { s with ppu := x.1, cart := x.2 }

/-- The bus read below the cartridge (20_memory R87 to R92): RAM and its mirrors, PPU registers, controller ports;
everything else reads $00. -/
def busRead (s : State) (addr : Word) : Byte × State :=
  if addr ≤ 0x1FFF then (s.ram.read (addr &&& 0x07FF).toNat, s)
  else if addr ≤ 0x3FFF then ppuRegRead s (field addr 0 3)
  else if addr = 0x4016 ∨ addr = 0x4017 then controllerRead s (addr.getLsbD 0)
  else (0, s)

/-- `MemRead(addr, 1)` (20_memory R85): the byte and the state after the read's side effect. -/
def memRead (s : State) (addr : Word) : Byte × State :=
  match s.cart.cpuMapRead s.config.m4PrgRam addr with
  | .served v => (v, s)
  | .prg off => (s.cart.prg.read off, s)
  | .notHandled => busRead s addr

/-- The bus write below the cartridge (20_memory R87 to R92); a write nobody handles is ignored. -/
def busWrite (s : State) (addr : Word) (v : Byte) : State :=
  if addr ≤ 0x1FFF then { s with ram := s.ram.write (addr &&& 0x07FF).toNat v }
  else if addr ≤ 0x3FFF then ppuRegWrite s (field addr 0 3) v
  else if addr ≤ 0x4013 ∨ addr = 0x4015 then { s with apu := s.apu.regWrite addr v }
  else if addr = 0x4014 then dmaStart s v
  else if addr = 0x4016 ∨ addr = 0x4017 then controllerLatch s (addr.getLsbD 0)
  else s

/-- `MemWrite(addr, 1, v)` (20_memory R86). -/
def memWrite (s : State) (addr : Word) (v : Byte) : State :=
  match s.cart.cpuMapWrite s.config.m4PrgRam addr v with
  | some c => { s with cart := c }
  | none => busWrite s addr v

/-- The byte a read of `addr` would answer, its side effect left out: how statements look at memory. -/
def peek (s : State) (addr : Word) : Byte := (memRead s addr).1

/-! ## The stack (10_state R24) -/

/-- The stack address `$0100 + sp` (10_state R23). -/
def stackAddr (sp : Byte) : Word := 0x0100 + zext sp

/-- `Push(v)`: write, then decrement S. -/
def push (s : State) (v : Byte) : State :=
  let s' := memWrite s (stackAddr s.cpu.sp) v
  s'.setSp (s'.cpu.sp - 1)

/-- `Pop()`: increment S, then read. -/
def pop (s : State) : Byte × State :=
  let s' := s.setSp (s.cpu.sp + 1)
  memRead s' (stackAddr s'.cpu.sp)

/-! ## Exceptions -/

/-- The vectors (20_memory R94). -/
def nmiVector : Word := 0xFFFA
/-- The reset vector. -/
def resetVector : Word := 0xFFFC
/-- The vector of IRQ and BRK. -/
def irqVector : Word := 0xFFFE

/-- `PC <- hi:lo` from the two bytes at `addr`, low first (20_memory R80, R94). -/
def loadPc (s : State) (addr : Word) : State :=
  let lo := memRead s addr
  let hi := memRead lo.2 (addr + 1)
  hi.2.setPc (join hi.1 lo.1)

/-- Taking an exception, the one operation of NMI, IRQ (60_exceptions R310) and BRK (45 R279): push the return address
high byte first, set U and I and B as given, push P, clear B (10_state R28), load PC from the vector. -/
def takeException (s : State) (ret : Word) (brk : Bool) (vector : Word) : State :=
  let s := push (push s (hiByte ret)) (loByte ret)
  let s := s.setP (entryStatus brk s.cpu.p)
  let s := push s s.cpu.p
  let s := s.setP (setFlag s.cpu.p .B false)
  loadPc s vector

/-- `InterruptEntry(vec)` (60_exceptions R310): the saved PC is the instruction that would have run next. -/
def interruptEntry (s : State) (vector : Word) : State := takeException s s.cpu.pc false vector

/-- The return from an exception (45 R280): P without bits 4 and 5, then PC, low byte first, no adjustment. -/
def returnFromException (s : State) : State :=
  let v := pop s
  let s := v.2.setP (pulledStatus v.1)
  let lo := pop s
  let hi := pop lo.2
  hi.2.setPc (join hi.1 lo.1)

/-- The NMI entry of R306, R307: the latch is cleared, 8 cycles. -/
def takeNmi (s : State) : State :=
  (interruptEntry { s with ppu := { s.ppu with nmiLatch := false } } nmiVector).setCycles 8

/-- The IRQ entry of R306, R309: the mapper is acknowledged after the entry, 7 cycles. -/
def takeIrq (s : State) : State :=
  let s := interruptEntry s irqVector
  ({ s with cart := s.cart.irqClear }).setCycles 7

/-! ## OAM DMA (61_bus R351) -/

/-- `DmaStep()`: the dummy wait, then reads on even and writes on odd parity of `system_clock`. -/
def dmaStep (s : State) : State :=
  if s.dma.dummy then
    if s.systemClock % 2 = 1 then { s with dma := { s.dma with dummy := false } } else s
  else if s.systemClock % 2 = 0 then
    let r := memRead s (join s.dma.page s.dma.addr)
    { r.2 with dma := { r.2.dma with data := r.1 } }
  else
    let addr := s.dma.addr + 1
    { s with
      ppu := { s.ppu with oam := s.ppu.oam.write s.dma.addr.toNat s.dma.data }
      dma := { s.dma with
        addr := addr
        transfer := if addr = 0 then false else s.dma.transfer
        dummy := if addr = 0 then true else s.dma.dummy } }

/-! ## Audio pacing (61_bus R360) -/

/-- `1 / (5.37 MHz × SPEED)`; a free value at SPEED 0 (log 14). -/
def timePerPpuClock (c : Config) : Rat := if c.speed = 0 then Config.freeClockTime else 1 / (5370000 * c.speed)

/-- `1 / SAMPLE_RATE`; a free value at SAMPLE_RATE 0 (log 14). -/
def timePerSample (c : Config) : Rat := if c.sampleRate = 0 then Config.freeSampleTime else 1 / c.sampleRate

/-- `audio_time` after its increase by `time_per_ppu_clock`. -/
def paceTime (s : State) : Rat := s.audioTime + timePerPpuClock s.config

/-- Whether the increased `audio_time` reaches `time_per_sample`: the answer of `AudioPace()`. -/
def paceDue (s : State) : Bool := decide (timePerSample s.config ≤ paceTime s)

/-- `AudioPace()`: `sampleReady` is its answer (log 14). -/
def audioPace (s : State) : State :=
  { s with
    audioTime := if paceDue s then paceTime s - timePerSample s.config else paceTime s
    apu := { s.apu with audioSample := if paceDue s then s.apu.mix s.config else s.apu.audioSample }
    sampleReady := paceDue s }

/-! ## Reset (70_reset R560, R561) -/

/-- `CpuReset()` (R561). -/
def cpuReset (s : State) : State :=
  let s := loadPc s resetVector
  { s with
    cpu := { s.cpu with
      a := s.config.resetA
      x := s.config.resetX
      y := s.config.resetY
      sp := 0xFD
      p := 0x20
      opcode := 0
      inputAlu := 0
      temp := 0
      absoluteAddr := 0
      relativeAddr := 0
      totalCycleCount := 0
      remainingCycles := 8 } }

/-- `BusReset()` (R560), in its order. The host inputs, the parameters and the model's own fields are kept (log 27). -/
def busReset (s : State) : State :=
  let s := { s with ram := [], cart := s.cart.reset }
  let s := cpuReset s
  { s with
    ppu := .reset
    apu := .reset
    systemClock := 0
    dma := .reset
    ctrlShift0 := 0
    ctrlShift1 := 0
    audioTime := 0
    sampleReady := false }

end Sys2Proof.Machine
end

