-- ==== Sys2Proof/Syntax.lean ====
section
/-! DEFINITION. The instructions: one constructor per mnemonic of spec/opcode_table.json (56 mnemonics and ILL,
30_encoding R140, R142). The table's rows of one mnemonic differ in the operand form alone (R124), and the form is the
constructor's operand (log 1). -/

namespace Sys2Proof

/-- The thirteen formats of 30_encoding R124. -/
inductive Format where
  | impl | acc | imm | zpg | zpx | zpy | abs | abx | aby | izx | izy | rel | ind
  deriving DecidableEq, Repr

/-- The size in bytes of each format (the table of R124). -/
def Format.size : Format → Nat
  | .impl | .acc => 1
  | .imm | .zpg | .zpx | .zpy | .izx | .izy | .rel => 2
  | .abs | .abx | .aby | .ind => 3

/-- An operand in memory: the eight formats that compute an effective address for a data access (R124, R127 to R134).
The 16-bit operand is `b2:b1`. -/
inductive Addr where
  | zpg (b1 : Byte)
  | zpx (b1 : Byte)
  | zpy (b1 : Byte)
  | abs (base : Word)
  | abx (base : Word)
  | aby (base : Word)
  | izx (b1 : Byte)
  | izy (b1 : Byte)
  deriving DecidableEq, Repr

/-- An operand that is read (R137): the immediate byte `b1`, or a byte of memory. -/
inductive Src where
  | imm (b1 : Byte)
  | mem (m : Addr)
  deriving DecidableEq, Repr

/-- The operand of a shift or rotate (R125, R230): the accumulator, or a byte of memory. -/
inductive Tgt where
  | acc
  | mem (m : Addr)
  deriving DecidableEq, Repr

/-- The operand of JMP (R259): the target, or the address of a pointer to it. -/
inductive JmpTgt where
  | abs (target : Word)
  | ind (ptr : Word)
  deriving DecidableEq, Repr

inductive Instr where
  -- load and store (40_load_store)
  | lda (o : Src)
  | ldx (o : Src)
  | ldy (o : Src)
  | sta (m : Addr)
  | stx (m : Addr)
  | sty (m : Addr)
  -- transfer and stack (41_transfer_stack)
  | tax
  | tay
  | txa
  | tya
  | tsx
  | txs
  | pha
  | php
  | pla
  | plp
  -- logic, arithmetic, compare, bit test (42_logic_arith)
  | ora (o : Src)
  | and (o : Src)
  | eor (o : Src)
  | adc (o : Src)
  | sbc (o : Src)
  | cmp (o : Src)
  | cpx (o : Src)
  | cpy (o : Src)
  | bit (m : Addr)
  -- shift, rotate, increment, decrement (43_shift_incdec)
  | asl (o : Tgt)
  | lsr (o : Tgt)
  | rol (o : Tgt)
  | ror (o : Tgt)
  | inc (m : Addr)
  | dec (m : Addr)
  | inx
  | iny
  | dex
  | dey
  -- branches, jumps, subroutines (44_branch_jump)
  | bpl (b1 : Byte)
  | bmi (b1 : Byte)
  | bvc (b1 : Byte)
  | bvs (b1 : Byte)
  | bcc (b1 : Byte)
  | bcs (b1 : Byte)
  | bne (b1 : Byte)
  | beq (b1 : Byte)
  | jmp (o : JmpTgt)
  | jsr (target : Word)
  | rts
  -- flags and system (45_flags_system)
  | clc
  | sec
  | cli
  | sei
  | clv
  | cld
  | sed
  | nop
  | brk
  | rti
  /-- Any of the 105 illegal opcodes: the opcode byte and the operand byte that is fetched and ignored (R281). -/
  | ill (op : Byte) (b1 : Byte)
  deriving DecidableEq, Repr

/-- The format of an operand in memory. -/
def Addr.format : Addr → Format
  | .zpg _ => .zpg
  | .zpx _ => .zpx
  | .zpy _ => .zpy
  | .abs _ => .abs
  | .abx _ => .abx
  | .aby _ => .aby
  | .izx _ => .izx
  | .izy _ => .izy

/-- The format of an operand that is read. -/
def Src.format : Src → Format
  | .imm _ => .imm
  | .mem m => m.format

/-- The format of a shift's operand. -/
def Tgt.format : Tgt → Format
  | .acc => .acc
  | .mem m => m.format

/-- The format of JMP's operand. -/
def JmpTgt.format : JmpTgt → Format
  | .abs _ => .abs
  | .ind _ => .ind

/-- The format of an instruction (R124, R140; ILL has format imm, R142). -/
def Instr.format : Instr → Format
  | .lda o | .ldx o | .ldy o => o.format
  | .sta m | .stx m | .sty m => m.format
  | .tax | .tay | .txa | .tya | .tsx | .txs | .pha | .php | .pla | .plp => .impl
  | .ora o | .and o | .eor o | .adc o | .sbc o | .cmp o | .cpx o | .cpy o => o.format
  | .bit m => m.format
  | .asl o | .lsr o | .rol o | .ror o => o.format
  | .inc m | .dec m => m.format
  | .inx | .iny | .dex | .dey => .impl
  | .bpl _ | .bmi _ | .bvc _ | .bvs _ | .bcc _ | .bcs _ | .bne _ | .beq _ => .rel
  | .jmp o => o.format
  | .jsr _ => .abs
  | .rts => .impl
  | .clc | .sec | .cli | .sei | .clv | .cld | .sed | .nop | .brk | .rti => .impl
  | .ill _ _ => .imm

/-- The size of an instruction in bytes (R120, R124). BRK is one byte: its padding byte is not fetched (R279). -/
def Instr.size (i : Instr) : Nat := i.format.size

end Sys2Proof
end

