-- ==== Sys2Proof/Machine/Operands.lean ====
section
/-! DEFINITION. The operand forms of 30_encoding R125 to R137: effective addresses with the page-cross bit, the operand
value, storing, read-modify-write, the branch target, and the cycle counts of R140 and 70_reset R576. -/

namespace Sys2Proof.Machine

/-- What an addressing mode computes: the effective address, whether the index changed the page, and the state after
the reads it made. -/
structure EffAddr where
  ea : Word
  cross : Bool
  state : State

/-- An operand that was read: its value, the page-cross bit, and the state after the reads. -/
structure Operand where
  value : Byte
  cross : Bool
  state : State

/-- Whether two addresses are in different pages (00_scope R12). -/
def pageCross (a b : Word) : Bool := decide (hiByte a ≠ hiByte b)

/-- The pointer at `p` in the zero page, its second byte at `u8(p + 1)`, low byte read first (R132, R133). -/
def zeroPagePointer (s : State) (p : Byte) : Word × State :=
  let lo := memRead s (zext p)
  let hi := memRead lo.2 (zext (p + 1))
  (join hi.1 lo.1, hi.2)

/-- The addressing mode's address without the latch (R127 to R134). -/
def modeAddr (m : Addr) (s : State) : EffAddr :=
  match m with
  | .zpg b1 => ⟨zext b1, false, s⟩
  | .zpx b1 => ⟨zext (b1 + s.cpu.x), false, s⟩
  | .zpy b1 => ⟨zext (b1 + s.cpu.y), false, s⟩
  | .abs base => ⟨base, false, s⟩
  | .abx base => ⟨base + zext s.cpu.x, pageCross (base + zext s.cpu.x) base, s⟩
  | .aby base => ⟨base + zext s.cpu.y, pageCross (base + zext s.cpu.y) base, s⟩
  | .izx b1 =>
    let p := zeroPagePointer s (b1 + s.cpu.x)
    ⟨p.1, false, p.2⟩
  | .izy b1 =>
    let p := zeroPagePointer s b1
    ⟨p.1 + zext s.cpu.y, pageCross (p.1 + zext s.cpu.y) p.1, p.2⟩

/-- The effective address, kept in the latch `absolute_addr` (10_state R30, log 9). -/
def effAddr (m : Addr) (s : State) : EffAddr :=
  let e := modeAddr m s
  ⟨e.ea, e.cross, e.state.setAbsoluteAddr e.ea⟩

/-- The operand value `M` (R126, R137): one read of `ea` after the mode's own reads; kept in `input_alu` (log 9). -/
def readSrc (o : Src) (s : State) : Operand :=
  match o with
  | .imm b1 => ⟨b1, false, s.setInputAlu b1⟩
  | .mem m =>
    let e := effAddr m s
    let r := memRead e.state e.ea
    ⟨r.1, e.cross, r.2.setInputAlu r.1⟩

/-- Storing a byte at an operand: one write of `ea`, no read (40 R170). -/
def storeTo (m : Addr) (v : Byte) (s : State) : State :=
  let e := effAddr m s
  memWrite e.state e.ea v

/-- A read-modify-write of memory: one read, then one write of `ea` (43 R230). `f` gives the result and the status. -/
def modifyMem (f : Byte → Byte → Byte × Byte) (m : Addr) (s : State) : State :=
  let e := effAddr m s
  let r := memRead e.state e.ea
  let s := r.2.setInputAlu r.1
  let x := f r.1 s.cpu.p
  (memWrite s e.ea x.1).setP x.2

/-- A shift's read-modify-write of the accumulator or of memory (43 R230). -/
def modifyTgt (f : Byte → Byte → Byte × Byte) (o : Tgt) (s : State) : State :=
  match o with
  | .acc =>
    let x := f s.cpu.a s.cpu.p
    ((s.setInputAlu s.cpu.a).setA x.1).setP x.2
  | .mem m => modifyMem f m s

/-- The address JMP goes to (R129, R136, 44 R259): the pointer's high byte comes from the same page when its low byte
is $FF. -/
def jumpTarget (o : JmpTgt) (s : State) : Word × State :=
  match o with
  | .abs target => (target, s)
  | .ind ptr =>
    let lo := memRead s ptr
    let hi := memRead lo.2 (if loByte ptr = 0xFF then ptr &&& 0xFF00 else ptr + 1)
    (join hi.1 lo.1, hi.2)

/-- `target = u16(pc0 + 2 + sext_16(b1))` (R135). -/
def branchTarget (pc0 : Word) (b1 : Byte) : Word := pc0 + 2 + sext b1

/-! ## Cycle counts -/

/-- The extra cycle of a page cross (70_reset R576). -/
def crossCycle (cross : Bool) : Nat := if cross then 1 else 0

/-- The base count of a read of memory (R140: LDA, ORA and their like). -/
def readCyclesAt : Addr → Nat
  | .zpg _ => 3
  | .zpx _ | .zpy _ => 4
  | .abs _ | .abx _ | .aby _ => 4
  | .izx _ => 6
  | .izy _ => 5

/-- The base count of an instruction that reads its operand (R140). -/
def readCycles : Src → Nat
  | .imm _ => 2
  | .mem m => readCyclesAt m

/-- The count of a store (R140): no page-cross cycle (R576). -/
def storeCycles : Addr → Nat
  | .zpg _ => 3
  | .zpx _ | .zpy _ => 4
  | .abs _ => 4
  | .abx _ | .aby _ => 5
  | .izx _ | .izy _ => 6

/-- The count of a read-modify-write (R140): no page-cross cycle (R576). R140 gives no such instruction the formats
(zp,X) and (zp),Y, so no encoding reaches the last line (log 23). -/
def modifyCyclesAt : Addr → Nat
  | .zpg _ => 5
  | .zpx _ | .zpy _ => 6
  | .abs _ => 6
  | .abx _ | .aby _ => 7
  | .izx _ | .izy _ => 8

/-- The count of a shift (R140). -/
def modifyCycles : Tgt → Nat
  | .acc => 2
  | .mem m => modifyCyclesAt m

/-- The count of JMP (R140). -/
def jumpCycles : JmpTgt → Nat
  | .abs _ => 3
  | .ind _ => 5

/-- The count of a conditional branch (44 R250, 70_reset R577): 2, one more when taken, one more when the target is in
another page than the reference address `BRANCH_PAGE_REF` names. -/
def branchCycles (ref : BranchPageRef) (cond : Bool) (pc0 : Word) (b1 : Byte) : Nat :=
  let origin := match ref with
    | .pc0 => pc0
    | .next => pc0 + 2
  if cond then 3 + crossCycle (pageCross (branchTarget pc0 b1) origin) else 2

end Sys2Proof.Machine
end

