-- ==== Sys2Proof/Machine/BranchJump.lean ====
section
/-! DEFINITION. Branches, jumps and subroutines (44_branch_jump R250 to R262). -/

namespace Sys2Proof.Machine

/-- A conditional branch (R250): no flag is written; the displacement is kept in `relative_addr` (log 9). -/
def branch (cond : Bool) (b1 : Byte) (s : State) : State :=
  let pc0 := s.cpu.pc
  ((s.setRelativeAddr (sext b1)).setPc (if cond then branchTarget pc0 b1 else pc0 + 2)).setCycles
    (branchCycles s.config.branchPageRef cond pc0 b1)

/-- BPL (R251). -/
def execBpl (b1 : Byte) (s : State) : Result := .next (branch (!flag s.cpu.p .N) b1 s)

/-- BMI (R252). -/
def execBmi (b1 : Byte) (s : State) : Result := .next (branch (flag s.cpu.p .N) b1 s)

/-- BVC (R253). -/
def execBvc (b1 : Byte) (s : State) : Result := .next (branch (!flag s.cpu.p .V) b1 s)

/-- BVS (R254). -/
def execBvs (b1 : Byte) (s : State) : Result := .next (branch (flag s.cpu.p .V) b1 s)

/-- BCC (R255). -/
def execBcc (b1 : Byte) (s : State) : Result := .next (branch (!flag s.cpu.p .C) b1 s)

/-- BCS (R256). -/
def execBcs (b1 : Byte) (s : State) : Result := .next (branch (flag s.cpu.p .C) b1 s)

/-- BNE (R257). -/
def execBne (b1 : Byte) (s : State) : Result := .next (branch (!flag s.cpu.p .Z) b1 s)

/-- BEQ (R258). -/
def execBeq (b1 : Byte) (s : State) : Result := .next (branch (flag s.cpu.p .Z) b1 s)

/-- JMP (R259): PC and `absolute_addr` become the target. -/
def execJmp (o : JmpTgt) (s : State) : Result :=
  let t := jumpTarget o s
  .next (((t.2.setAbsoluteAddr t.1).setPc t.1).setCycles (jumpCycles o))

/-- JSR (R260): the address of its last byte is pushed, high byte first. -/
def execJsr (target : Word) (s : State) : Result :=
  let ret := s.cpu.pc + 2
  let s := push (push (s.setAbsoluteAddr target) (hiByte ret)) (loByte ret)
  .next ((s.setPc target).setCycles 6)

/-- RTS (R261): the pulled address plus 1. -/
def execRts (s : State) : Result :=
  let lo := pop s
  let hi := pop lo.2
  .next ((hi.2.setPc (join hi.1 lo.1 + 1)).setCycles 6)

end Sys2Proof.Machine
end

