-- ==== Sys2Proof/Machine/FlagsSystem.lean ====
section
/-! DEFINITION. Flags, NOP, BRK, RTI and the illegal opcodes (45_flags_system R270 to R281). -/

namespace Sys2Proof.Machine

/-- An instruction that writes one flag (R271 to R277). -/
def writeFlag (f : Flag) (b : Bool) (s : State) : State := (s.setP (setFlag s.cpu.p f b)).retire 1 2

/-- CLC (R271). -/
def execClc (s : State) : Result := .next (writeFlag .C false s)

/-- SEC (R272). -/
def execSec (s : State) : Result := .next (writeFlag .C true s)

/-- CLI (R273). -/
def execCli (s : State) : Result := .next (writeFlag .I false s)

/-- SEI (R274). -/
def execSei (s : State) : Result := .next (writeFlag .I true s)

/-- CLV (R275). -/
def execClv (s : State) : Result := .next (writeFlag .V false s)

/-- CLD (R276). -/
def execCld (s : State) : Result := .next (writeFlag .D false s)

/-- SED (R277). -/
def execSed (s : State) : Result := .next (writeFlag .D true s)

/-- NOP (R278). -/
def execNop (s : State) : Result := .next (s.retire 1 2)

/-- BRK (R279): the exception entry with B set and the return address `pc0 + 2`; not gated by I (decision D33). -/
def execBrk (s : State) : Result := .next ((takeException s (s.cpu.pc + 2) true irqVector).setCycles 7)

/-- RTI (R280). -/
def execRti (s : State) : Result := .next ((returnFromException s).setCycles 6)

/-- ILL (R281, decision D2): the IllegalOpcode event is recorded and PC moves on by two; under `ILLEGAL_POLICY =
refuse` the opcode has no meaning. The operand byte was fetched and is ignored. -/
def execIll (op _b1 : Byte) (s : State) : Result :=
  match s.config.illegalPolicy with
  | .nop2 => .next ({ s with illegalTrace := ⟨s.cpu.pc, op⟩ :: s.illegalTrace }.retire 2 2)
  | .refuse => .refused (.illegalOpcode s.cpu.pc op)

end Sys2Proof.Machine
end

