-- ==== Sys2Proof/Machine/LoadStore.lean ====
section
/-! DEFINITION. Load and store (40_load_store R170 to R176). Every meaning takes the state with PC at the opcode
(`pc0`), advances PC and loads `remaining_cycles` (log 20). -/

namespace Sys2Proof.Machine

/-- The end of an instruction that read its operand `r`: its size and its cycles (R170, R210). -/
def finishRead (o : Src) (r : Operand) (s : State) : State :=
  s.retire o.format.size (readCycles o + crossCycle r.cross)

/-- LDA (R171): `A <- M; SetNZ(A)`. -/
def execLda (o : Src) (s : State) : Result :=
  let r := readSrc o s
  let s := r.state
  .next (finishRead o r ((s.setA r.value).setP (setNZ s.cpu.p r.value)))

/-- LDX (R172). -/
def execLdx (o : Src) (s : State) : Result :=
  let r := readSrc o s
  let s := r.state
  .next (finishRead o r ((s.setX r.value).setP (setNZ s.cpu.p r.value)))

/-- LDY (R173). -/
def execLdy (o : Src) (s : State) : Result :=
  let r := readSrc o s
  let s := r.state
  .next (finishRead o r ((s.setY r.value).setP (setNZ s.cpu.p r.value)))

/-- A store of `v` (R170): one write, no flag, no page-cross cycle. -/
def store (m : Addr) (v : Byte) (s : State) : State :=
  (storeTo m v s).retire m.format.size (storeCycles m)

/-- STA (R174): `MemWrite(ea, 1, A)`. -/
def execSta (m : Addr) (s : State) : Result := .next (store m s.cpu.a s)

/-- STX (R175). -/
def execStx (m : Addr) (s : State) : Result := .next (store m s.cpu.x s)

/-- STY (R176). -/
def execSty (m : Addr) (s : State) : Result := .next (store m s.cpu.y s)

end Sys2Proof.Machine
end

