-- ==== Sys2Proof/Machine/LogicArith.lean ====
section
/-! DEFINITION. Logic, arithmetic, compare and bit test (42_logic_arith R210 to R220): each reads one operand. -/

namespace Sys2Proof.Machine

/-- An instruction that computes A and P from A, the operand and P (R210). -/
def accumulate (f : Byte → Byte → Byte → Byte × Byte) (o : Src) (s : State) : State :=
  let r := readSrc o s
  let s := r.state
  let x := f s.cpu.a r.value s.cpu.p
  finishRead o r ((s.setA x.1).setP x.2)

/-- ORA (R211). -/
def execOra (o : Src) (s : State) : Result := .next (accumulate (fun a m p => (a ||| m, setNZ p (a ||| m))) o s)

/-- AND (R212). -/
def execAnd (o : Src) (s : State) : Result := .next (accumulate (fun a m p => (a &&& m, setNZ p (a &&& m))) o s)

/-- EOR (R213). -/
def execEor (o : Src) (s : State) : Result := .next (accumulate (fun a m p => (a ^^^ m, setNZ p (a ^^^ m))) o s)

/-- ADC (R214). -/
def execAdc (o : Src) (s : State) : Result := .next (accumulate adc o s)

/-- SBC (R215). -/
def execSbc (o : Src) (s : State) : Result := .next (accumulate sbc o s)

/-- A compare of the register `reg` picks (R216 to R218): only P is written. -/
def compareWith (reg : State → Byte) (o : Src) (s : State) : State :=
  let r := readSrc o s
  let s := r.state
  finishRead o r (s.setP (compare (reg s) r.value s.cpu.p))

/-- CMP (R216). -/
def execCmp (o : Src) (s : State) : Result := .next (compareWith (fun s => s.cpu.a) o s)

/-- CPX (R217). -/
def execCpx (o : Src) (s : State) : Result := .next (compareWith (fun s => s.cpu.x) o s)

/-- CPY (R218). -/
def execCpy (o : Src) (s : State) : Result := .next (compareWith (fun s => s.cpu.y) o s)

/-- BIT (R219): Z from `A & M`, N and V from bits 7 and 6 of `M`. -/
def execBit (m : Addr) (s : State) : Result :=
  let r := readSrc (.mem m) s
  let s := r.state
  .next (finishRead (.mem m) r (s.setP (bitTest s.cpu.a r.value s.cpu.p)))

end Sys2Proof.Machine
end

