-- ==== Sys2Proof/Machine/ShiftIncDec.lean ====
section
/-! DEFINITION. Shift, rotate, increment and decrement (43_shift_incdec R230 to R240). -/

namespace Sys2Proof.Machine

/-- A shift or rotate of A or of memory (R230). -/
def shift (f : Byte → Byte → Byte × Byte) (o : Tgt) (s : State) : State :=
  (modifyTgt f o s).retire o.format.size (modifyCycles o)

/-- ASL (R231). -/
def execAsl (o : Tgt) (s : State) : Result := .next (shift asl o s)

/-- LSR (R232). -/
def execLsr (o : Tgt) (s : State) : Result := .next (shift lsr o s)

/-- ROL (R233). -/
def execRol (o : Tgt) (s : State) : Result := .next (shift rol o s)

/-- ROR (R234). -/
def execRor (o : Tgt) (s : State) : Result := .next (shift ror o s)

/-- An increment or decrement of memory (R230). -/
def stepMem (f : Byte → Byte → Byte × Byte) (m : Addr) (s : State) : State :=
  (modifyMem f m s).retire m.format.size (modifyCyclesAt m)

/-- INC (R235). -/
def execInc (m : Addr) (s : State) : Result := .next (stepMem inc m s)

/-- DEC (R236). -/
def execDec (m : Addr) (s : State) : Result := .next (stepMem dec m s)

/-- INX (R237). -/
def execInx (s : State) : Result :=
  .next (((s.setX (s.cpu.x + 1)).setP (setNZ s.cpu.p (s.cpu.x + 1))).retire 1 2)

/-- INY (R238). -/
def execIny (s : State) : Result :=
  .next (((s.setY (s.cpu.y + 1)).setP (setNZ s.cpu.p (s.cpu.y + 1))).retire 1 2)

/-- DEX (R239). -/
def execDex (s : State) : Result :=
  .next (((s.setX (s.cpu.x - 1)).setP (setNZ s.cpu.p (s.cpu.x - 1))).retire 1 2)

/-- DEY (R240). -/
def execDey (s : State) : Result :=
  .next (((s.setY (s.cpu.y - 1)).setP (setNZ s.cpu.p (s.cpu.y - 1))).retire 1 2)

end Sys2Proof.Machine
end

