-- ==== Sys2Proof/Machine/TransferStack.lean ====
section
/-! DEFINITION. Register transfer and stack (41_transfer_stack R190 to R200): one byte each. -/

namespace Sys2Proof.Machine

/-- TAX (R191): `X <- A; SetNZ(X)`. -/
def execTax (s : State) : Result :=
  .next (((s.setX s.cpu.a).setP (setNZ s.cpu.p s.cpu.a)).retire 1 2)

/-- TAY (R192). -/
def execTay (s : State) : Result :=
  .next (((s.setY s.cpu.a).setP (setNZ s.cpu.p s.cpu.a)).retire 1 2)

/-- TXA (R193). -/
def execTxa (s : State) : Result :=
  .next (((s.setA s.cpu.x).setP (setNZ s.cpu.p s.cpu.x)).retire 1 2)

/-- TYA (R194). -/
def execTya (s : State) : Result :=
  .next (((s.setA s.cpu.y).setP (setNZ s.cpu.p s.cpu.y)).retire 1 2)

/-- TSX (R195). -/
def execTsx (s : State) : Result :=
  .next (((s.setX s.cpu.sp).setP (setNZ s.cpu.p s.cpu.sp)).retire 1 2)

/-- TXS (R196): no flag. -/
def execTxs (s : State) : Result := .next ((s.setSp s.cpu.x).retire 1 2)

/-- PHA (R197). -/
def execPha (s : State) : Result := .next ((push s s.cpu.a).retire 1 3)

/-- PHP (R198): the pushed byte has B and U set, P is unchanged. -/
def execPhp (s : State) : Result := .next ((push s (phpStatus s.cpu.p)).retire 1 3)

/-- PLA (R199). -/
def execPla (s : State) : Result :=
  let v := pop s
  let s := v.2
  .next (((s.setA v.1).setP (setNZ s.cpu.p v.1)).retire 1 4)

/-- PLP (R200): bits 4 and 5 of the pulled byte are ignored. -/
def execPlp (s : State) : Result :=
  let v := pop s
  .next ((v.2.setP (pulledStatus v.1)).retire 1 4)

end Sys2Proof.Machine
end

