-- ==== Sys2Proof/WellFormed.lean ====
section
/-! DEFINITION. Which terms of `Instr` have an encoding: the operand form must be one that 30_encoding R140 lists for
the mnemonic, and ILL must carry one of the 105 illegal opcode bytes of R142. -/

namespace Sys2Proof

/-- The 105 illegal opcode bytes, as R142 lists them. -/
def illegalOpcodes : List Byte :=
  [0x02, 0x03, 0x04, 0x07, 0x0B, 0x0C, 0x0F, 0x12, 0x13, 0x14, 0x17, 0x1A, 0x1B, 0x1C, 0x1F, 0x22, 0x23, 0x27, 0x2B,
   0x2F, 0x32, 0x33, 0x34, 0x37, 0x3A, 0x3B, 0x3C, 0x3F] ++
  [0x42, 0x43, 0x44, 0x47, 0x4B, 0x4F, 0x52, 0x53, 0x54, 0x57, 0x5A, 0x5B, 0x5C, 0x5F, 0x62, 0x63, 0x64, 0x67, 0x6B,
   0x6F, 0x72, 0x73, 0x74, 0x77, 0x7A, 0x7B, 0x7C, 0x7F] ++
  [0x80, 0x82, 0x83, 0x87, 0x89, 0x8B, 0x8F, 0x92, 0x93, 0x97, 0x9B, 0x9C, 0x9E, 0x9F, 0xA3, 0xA7, 0xAB, 0xAF, 0xB2,
   0xB3, 0xB7, 0xBB, 0xBF] ++
  [0xC2, 0xC3, 0xC7, 0xCB, 0xCF, 0xD2, 0xD3, 0xD4, 0xD7, 0xDA, 0xDB, 0xDC, 0xDF, 0xE2, 0xE3, 0xE7, 0xEB, 0xEF, 0xF2,
   0xF3, 0xF4, 0xF7, 0xFA, 0xFB, 0xFC, 0xFF]

/-- The eight formats of the c = 1 column (ORA, AND, EOR, ADC, LDA, CMP, SBC in R140). -/
def aluFormats : List Format := [.izx, .zpg, .imm, .abs, .izy, .zpx, .aby, .abx]

/-- The formats R140 lists for the mnemonic of an instruction. -/
def Instr.formats : Instr → List Format
  | .lda _ => aluFormats
  | .ldx _ => [.imm, .zpg, .abs, .zpy, .aby]
  | .ldy _ => [.imm, .zpg, .abs, .zpx, .abx]
  | .sta _ => [.izx, .zpg, .abs, .izy, .zpx, .aby, .abx]
  | .stx _ => [.zpg, .abs, .zpy]
  | .sty _ => [.zpg, .abs, .zpx]
  | .tax | .tay | .txa | .tya | .tsx | .txs | .pha | .php | .pla | .plp => [.impl]
  | .ora _ | .and _ | .eor _ | .adc _ | .sbc _ | .cmp _ => aluFormats
  | .cpx _ | .cpy _ => [.imm, .zpg, .abs]
  | .bit _ => [.zpg, .abs]
  | .asl _ | .lsr _ | .rol _ | .ror _ => [.zpg, .acc, .abs, .zpx, .abx]
  | .inc _ | .dec _ => [.zpg, .abs, .zpx, .abx]
  | .inx | .iny | .dex | .dey => [.impl]
  | .bpl _ | .bmi _ | .bvc _ | .bvs _ | .bcc _ | .bcs _ | .bne _ | .beq _ => [.rel]
  | .jmp _ => [.abs, .ind]
  | .jsr _ => [.abs]
  | .rts | .clc | .sec | .cli | .sei | .clv | .cld | .sed | .nop | .brk | .rti => [.impl]
  | .ill _ _ => [.imm]

/-- The check on the opcode byte that ILL carries (R142). -/
def Instr.opcodeOk : Instr → Bool
  | .ill op _ => illegalOpcodes.contains op
  | .lda _ | .ldx _ | .ldy _ | .sta _ | .stx _ | .sty _ | .tax | .tay | .txa | .tya | .tsx | .txs | .pha | .php | .pla
  | .plp | .ora _ | .and _ | .eor _ | .adc _ | .sbc _ | .cmp _ | .cpx _ | .cpy _ | .bit _ | .asl _ | .lsr _ | .rol _
  | .ror _ | .inc _ | .dec _ | .inx | .iny | .dex | .dey | .bpl _ | .bmi _ | .bvc _ | .bvs _ | .bcc _ | .bcs _ | .bne _
  | .beq _ | .jmp _ | .jsr _ | .rts | .clc | .sec | .cli | .sei | .clv | .cld | .sed | .nop | .brk | .rti => true

/-- The whole check: the form is one of the mnemonic's, and an ILL carries an illegal opcode. -/
def Instr.wf (i : Instr) : Bool := i.formats.contains i.format && i.opcodeOk

/-- `i` is an instruction the machine encodes. -/
abbrev Instr.WellFormed (i : Instr) : Prop := i.wf = true

end Sys2Proof
end

