-- ==== Sys2Proof/Decode.lean ====
section
/-! DEFINITION. The decoder, written from the 16 by 16 matrix of 30_encoding R141, total on every byte (R147), and
after it the encoder, written from the list of R140. The two are separate transcriptions of two tables of the spec. -/

namespace Sys2Proof

/-- Row 0x of the matrix of R141. -/
def decodeRow0 (op b1 b2 : Byte) : Instr :=
  match op.toNat % 16 with
  | 0x0 => .brk
  | 0x1 => .ora (.mem (.izx b1))
  | 0x5 => .ora (.mem (.zpg b1))
  | 0x6 => .asl (.mem (.zpg b1))
  | 0x8 => .php
  | 0x9 => .ora (.imm b1)
  | 0xA => .asl .acc
  | 0xD => .ora (.mem (.abs (join b2 b1)))
  | 0xE => .asl (.mem (.abs (join b2 b1)))
  | _ => .ill op b1

/-- Row 1x of the matrix of R141. -/
def decodeRow1 (op b1 b2 : Byte) : Instr :=
  match op.toNat % 16 with
  | 0x0 => .bpl b1
  | 0x1 => .ora (.mem (.izy b1))
  | 0x5 => .ora (.mem (.zpx b1))
  | 0x6 => .asl (.mem (.zpx b1))
  | 0x8 => .clc
  | 0x9 => .ora (.mem (.aby (join b2 b1)))
  | 0xD => .ora (.mem (.abx (join b2 b1)))
  | 0xE => .asl (.mem (.abx (join b2 b1)))
  | _ => .ill op b1

/-- Row 2x of the matrix of R141. -/
def decodeRow2 (op b1 b2 : Byte) : Instr :=
  match op.toNat % 16 with
  | 0x0 => .jsr (join b2 b1)
  | 0x1 => .and (.mem (.izx b1))
  | 0x4 => .bit (.zpg b1)
  | 0x5 => .and (.mem (.zpg b1))
  | 0x6 => .rol (.mem (.zpg b1))
  | 0x8 => .plp
  | 0x9 => .and (.imm b1)
  | 0xA => .rol .acc
  | 0xC => .bit (.abs (join b2 b1))
  | 0xD => .and (.mem (.abs (join b2 b1)))
  | 0xE => .rol (.mem (.abs (join b2 b1)))
  | _ => .ill op b1

/-- Row 3x of the matrix of R141. -/
def decodeRow3 (op b1 b2 : Byte) : Instr :=
  match op.toNat % 16 with
  | 0x0 => .bmi b1
  | 0x1 => .and (.mem (.izy b1))
  | 0x5 => .and (.mem (.zpx b1))
  | 0x6 => .rol (.mem (.zpx b1))
  | 0x8 => .sec
  | 0x9 => .and (.mem (.aby (join b2 b1)))
  | 0xD => .and (.mem (.abx (join b2 b1)))
  | 0xE => .rol (.mem (.abx (join b2 b1)))
  | _ => .ill op b1

/-- Row 4x of the matrix of R141. -/
def decodeRow4 (op b1 b2 : Byte) : Instr :=
  match op.toNat % 16 with
  | 0x0 => .rti
  | 0x1 => .eor (.mem (.izx b1))
  | 0x5 => .eor (.mem (.zpg b1))
  | 0x6 => .lsr (.mem (.zpg b1))
  | 0x8 => .pha
  | 0x9 => .eor (.imm b1)
  | 0xA => .lsr .acc
  | 0xC => .jmp (.abs (join b2 b1))
  | 0xD => .eor (.mem (.abs (join b2 b1)))
  | 0xE => .lsr (.mem (.abs (join b2 b1)))
  | _ => .ill op b1

/-- Row 5x of the matrix of R141. -/
def decodeRow5 (op b1 b2 : Byte) : Instr :=
  match op.toNat % 16 with
  | 0x0 => .bvc b1
  | 0x1 => .eor (.mem (.izy b1))
  | 0x5 => .eor (.mem (.zpx b1))
  | 0x6 => .lsr (.mem (.zpx b1))
  | 0x8 => .cli
  | 0x9 => .eor (.mem (.aby (join b2 b1)))
  | 0xD => .eor (.mem (.abx (join b2 b1)))
  | 0xE => .lsr (.mem (.abx (join b2 b1)))
  | _ => .ill op b1

/-- Row 6x of the matrix of R141. -/
def decodeRow6 (op b1 b2 : Byte) : Instr :=
  match op.toNat % 16 with
  | 0x0 => .rts
  | 0x1 => .adc (.mem (.izx b1))
  | 0x5 => .adc (.mem (.zpg b1))
  | 0x6 => .ror (.mem (.zpg b1))
  | 0x8 => .pla
  | 0x9 => .adc (.imm b1)
  | 0xA => .ror .acc
  | 0xC => .jmp (.ind (join b2 b1))
  | 0xD => .adc (.mem (.abs (join b2 b1)))
  | 0xE => .ror (.mem (.abs (join b2 b1)))
  | _ => .ill op b1

/-- Row 7x of the matrix of R141. -/
def decodeRow7 (op b1 b2 : Byte) : Instr :=
  match op.toNat % 16 with
  | 0x0 => .bvs b1
  | 0x1 => .adc (.mem (.izy b1))
  | 0x5 => .adc (.mem (.zpx b1))
  | 0x6 => .ror (.mem (.zpx b1))
  | 0x8 => .sei
  | 0x9 => .adc (.mem (.aby (join b2 b1)))
  | 0xD => .adc (.mem (.abx (join b2 b1)))
  | 0xE => .ror (.mem (.abx (join b2 b1)))
  | _ => .ill op b1

/-- Row 8x of the matrix of R141. -/
def decodeRow8 (op b1 b2 : Byte) : Instr :=
  match op.toNat % 16 with
  | 0x1 => .sta (.izx b1)
  | 0x4 => .sty (.zpg b1)
  | 0x5 => .sta (.zpg b1)
  | 0x6 => .stx (.zpg b1)
  | 0x8 => .dey
  | 0xA => .txa
  | 0xC => .sty (.abs (join b2 b1))
  | 0xD => .sta (.abs (join b2 b1))
  | 0xE => .stx (.abs (join b2 b1))
  | _ => .ill op b1

/-- Row 9x of the matrix of R141. -/
def decodeRow9 (op b1 b2 : Byte) : Instr :=
  match op.toNat % 16 with
  | 0x0 => .bcc b1
  | 0x1 => .sta (.izy b1)
  | 0x4 => .sty (.zpx b1)
  | 0x5 => .sta (.zpx b1)
  | 0x6 => .stx (.zpy b1)
  | 0x8 => .tya
  | 0x9 => .sta (.aby (join b2 b1))
  | 0xA => .txs
  | 0xD => .sta (.abx (join b2 b1))
  | _ => .ill op b1

/-- Row Ax of the matrix of R141. -/
def decodeRowA (op b1 b2 : Byte) : Instr :=
  match op.toNat % 16 with
  | 0x0 => .ldy (.imm b1)
  | 0x1 => .lda (.mem (.izx b1))
  | 0x2 => .ldx (.imm b1)
  | 0x4 => .ldy (.mem (.zpg b1))
  | 0x5 => .lda (.mem (.zpg b1))
  | 0x6 => .ldx (.mem (.zpg b1))
  | 0x8 => .tay
  | 0x9 => .lda (.imm b1)
  | 0xA => .tax
  | 0xC => .ldy (.mem (.abs (join b2 b1)))
  | 0xD => .lda (.mem (.abs (join b2 b1)))
  | 0xE => .ldx (.mem (.abs (join b2 b1)))
  | _ => .ill op b1

/-- Row Bx of the matrix of R141. -/
def decodeRowB (op b1 b2 : Byte) : Instr :=
  match op.toNat % 16 with
  | 0x0 => .bcs b1
  | 0x1 => .lda (.mem (.izy b1))
  | 0x4 => .ldy (.mem (.zpx b1))
  | 0x5 => .lda (.mem (.zpx b1))
  | 0x6 => .ldx (.mem (.zpy b1))
  | 0x8 => .clv
  | 0x9 => .lda (.mem (.aby (join b2 b1)))
  | 0xA => .tsx
  | 0xC => .ldy (.mem (.abx (join b2 b1)))
  | 0xD => .lda (.mem (.abx (join b2 b1)))
  | 0xE => .ldx (.mem (.aby (join b2 b1)))
  | _ => .ill op b1

/-- Row Cx of the matrix of R141. -/
def decodeRowC (op b1 b2 : Byte) : Instr :=
  match op.toNat % 16 with
  | 0x0 => .cpy (.imm b1)
  | 0x1 => .cmp (.mem (.izx b1))
  | 0x4 => .cpy (.mem (.zpg b1))
  | 0x5 => .cmp (.mem (.zpg b1))
  | 0x6 => .dec (.zpg b1)
  | 0x8 => .iny
  | 0x9 => .cmp (.imm b1)
  | 0xA => .dex
  | 0xC => .cpy (.mem (.abs (join b2 b1)))
  | 0xD => .cmp (.mem (.abs (join b2 b1)))
  | 0xE => .dec (.abs (join b2 b1))
  | _ => .ill op b1

/-- Row Dx of the matrix of R141. -/
def decodeRowD (op b1 b2 : Byte) : Instr :=
  match op.toNat % 16 with
  | 0x0 => .bne b1
  | 0x1 => .cmp (.mem (.izy b1))
  | 0x5 => .cmp (.mem (.zpx b1))
  | 0x6 => .dec (.zpx b1)
  | 0x8 => .cld
  | 0x9 => .cmp (.mem (.aby (join b2 b1)))
  | 0xD => .cmp (.mem (.abx (join b2 b1)))
  | 0xE => .dec (.abx (join b2 b1))
  | _ => .ill op b1

/-- Row Ex of the matrix of R141. -/
def decodeRowE (op b1 b2 : Byte) : Instr :=
  match op.toNat % 16 with
  | 0x0 => .cpx (.imm b1)
  | 0x1 => .sbc (.mem (.izx b1))
  | 0x4 => .cpx (.mem (.zpg b1))
  | 0x5 => .sbc (.mem (.zpg b1))
  | 0x6 => .inc (.zpg b1)
  | 0x8 => .inx
  | 0x9 => .sbc (.imm b1)
  | 0xA => .nop
  | 0xC => .cpx (.mem (.abs (join b2 b1)))
  | 0xD => .sbc (.mem (.abs (join b2 b1)))
  | 0xE => .inc (.abs (join b2 b1))
  | _ => .ill op b1

/-- Row Fx of the matrix of R141. -/
def decodeRowF (op b1 b2 : Byte) : Instr :=
  match op.toNat % 16 with
  | 0x0 => .beq b1
  | 0x1 => .sbc (.mem (.izy b1))
  | 0x5 => .sbc (.mem (.zpx b1))
  | 0x6 => .inc (.zpx b1)
  | 0x8 => .sed
  | 0x9 => .sbc (.mem (.aby (join b2 b1)))
  | 0xD => .sbc (.mem (.abx (join b2 b1)))
  | 0xE => .inc (.abx (join b2 b1))
  | _ => .ill op b1
/-- The instruction that an opcode byte and the two bytes after it stand for (R120, R141, R142): a pure function,
defined for every byte. A byte that the format does not have is ignored. -/
def decodeBytes (op b1 b2 : Byte) : Instr :=
  match op.toNat / 16 with
  | 0x0 => decodeRow0 op b1 b2
  | 0x1 => decodeRow1 op b1 b2
  | 0x2 => decodeRow2 op b1 b2
  | 0x3 => decodeRow3 op b1 b2
  | 0x4 => decodeRow4 op b1 b2
  | 0x5 => decodeRow5 op b1 b2
  | 0x6 => decodeRow6 op b1 b2
  | 0x7 => decodeRow7 op b1 b2
  | 0x8 => decodeRow8 op b1 b2
  | 0x9 => decodeRow9 op b1 b2
  | 0xA => decodeRowA op b1 b2
  | 0xB => decodeRowB op b1 b2
  | 0xC => decodeRowC op b1 b2
  | 0xD => decodeRowD op b1 b2
  | 0xE => decodeRowE op b1 b2
  | _ => decodeRowF op b1 b2

/-- The length of the instruction an opcode byte begins: the first byte alone determines it (R120, R144). -/
def opcodeSize (op : Byte) : Nat := (decodeBytes op 0 0).size

/-- Why a list of bytes is no instruction. Every opcode byte decodes (R147), so only missing bytes are rejected. -/
inductive DecodeError where
  | noBytes
  | missingOperand (op : Byte)
  deriving DecidableEq, Repr

/-- What the decoder answers on a list of bytes: an instruction and the bytes after it, or a rejection by name. -/
inductive Decoded where
  | ok (i : Instr) (rest : List Byte)
  | rejected (e : DecodeError)
  deriving DecidableEq, Repr

/-- The decoder on the bytes of an instruction stream. -/
def decode : List Byte → Decoded
  | [] => .rejected .noBytes
  | op :: rest =>
    match opcodeSize op, rest with
    | 1, _ => .ok (decodeBytes op 0 0) rest
    | 2, b1 :: rest' => .ok (decodeBytes op b1 0) rest'
    | 3, b1 :: b2 :: rest' => .ok (decodeBytes op b1 b2) rest'
    | _, _ => .rejected (.missingOperand op)

/-- The encodings of R140: the formats of an instruction's mnemonic, each with its opcode byte. -/
def Instr.opcodes : Instr → List (Format × Byte)
  | .lda _ => [(.izx, 0xA1), (.zpg, 0xA5), (.imm, 0xA9), (.abs, 0xAD), (.izy, 0xB1), (.zpx, 0xB5), (.aby, 0xB9), (.abx, 0xBD)]
  | .ldx _ => [(.imm, 0xA2), (.zpg, 0xA6), (.abs, 0xAE), (.zpy, 0xB6), (.aby, 0xBE)]
  | .ldy _ => [(.imm, 0xA0), (.zpg, 0xA4), (.abs, 0xAC), (.zpx, 0xB4), (.abx, 0xBC)]
  | .sta _ => [(.izx, 0x81), (.zpg, 0x85), (.abs, 0x8D), (.izy, 0x91), (.zpx, 0x95), (.aby, 0x99), (.abx, 0x9D)]
  | .stx _ => [(.zpg, 0x86), (.abs, 0x8E), (.zpy, 0x96)]
  | .sty _ => [(.zpg, 0x84), (.abs, 0x8C), (.zpx, 0x94)]
  | .tax => [(.impl, 0xAA)]
  | .tay => [(.impl, 0xA8)]
  | .txa => [(.impl, 0x8A)]
  | .tya => [(.impl, 0x98)]
  | .tsx => [(.impl, 0xBA)]
  | .txs => [(.impl, 0x9A)]
  | .pha => [(.impl, 0x48)]
  | .php => [(.impl, 0x08)]
  | .pla => [(.impl, 0x68)]
  | .plp => [(.impl, 0x28)]
  | .ora _ => [(.izx, 0x01), (.zpg, 0x05), (.imm, 0x09), (.abs, 0x0D), (.izy, 0x11), (.zpx, 0x15), (.aby, 0x19), (.abx, 0x1D)]
  | .and _ => [(.izx, 0x21), (.zpg, 0x25), (.imm, 0x29), (.abs, 0x2D), (.izy, 0x31), (.zpx, 0x35), (.aby, 0x39), (.abx, 0x3D)]
  | .eor _ => [(.izx, 0x41), (.zpg, 0x45), (.imm, 0x49), (.abs, 0x4D), (.izy, 0x51), (.zpx, 0x55), (.aby, 0x59), (.abx, 0x5D)]
  | .adc _ => [(.izx, 0x61), (.zpg, 0x65), (.imm, 0x69), (.abs, 0x6D), (.izy, 0x71), (.zpx, 0x75), (.aby, 0x79), (.abx, 0x7D)]
  | .sbc _ => [(.izx, 0xE1), (.zpg, 0xE5), (.imm, 0xE9), (.abs, 0xED), (.izy, 0xF1), (.zpx, 0xF5), (.aby, 0xF9), (.abx, 0xFD)]
  | .cmp _ => [(.izx, 0xC1), (.zpg, 0xC5), (.imm, 0xC9), (.abs, 0xCD), (.izy, 0xD1), (.zpx, 0xD5), (.aby, 0xD9), (.abx, 0xDD)]
  | .cpx _ => [(.imm, 0xE0), (.zpg, 0xE4), (.abs, 0xEC)]
  | .cpy _ => [(.imm, 0xC0), (.zpg, 0xC4), (.abs, 0xCC)]
  | .bit _ => [(.zpg, 0x24), (.abs, 0x2C)]
  | .asl _ => [(.zpg, 0x06), (.acc, 0x0A), (.abs, 0x0E), (.zpx, 0x16), (.abx, 0x1E)]
  | .lsr _ => [(.zpg, 0x46), (.acc, 0x4A), (.abs, 0x4E), (.zpx, 0x56), (.abx, 0x5E)]
  | .rol _ => [(.zpg, 0x26), (.acc, 0x2A), (.abs, 0x2E), (.zpx, 0x36), (.abx, 0x3E)]
  | .ror _ => [(.zpg, 0x66), (.acc, 0x6A), (.abs, 0x6E), (.zpx, 0x76), (.abx, 0x7E)]
  | .inc _ => [(.zpg, 0xE6), (.abs, 0xEE), (.zpx, 0xF6), (.abx, 0xFE)]
  | .dec _ => [(.zpg, 0xC6), (.abs, 0xCE), (.zpx, 0xD6), (.abx, 0xDE)]
  | .inx => [(.impl, 0xE8)]
  | .iny => [(.impl, 0xC8)]
  | .dex => [(.impl, 0xCA)]
  | .dey => [(.impl, 0x88)]
  | .bpl _ => [(.rel, 0x10)]
  | .bmi _ => [(.rel, 0x30)]
  | .bvc _ => [(.rel, 0x50)]
  | .bvs _ => [(.rel, 0x70)]
  | .bcc _ => [(.rel, 0x90)]
  | .bcs _ => [(.rel, 0xB0)]
  | .bne _ => [(.rel, 0xD0)]
  | .beq _ => [(.rel, 0xF0)]
  | .jmp _ => [(.abs, 0x4C), (.ind, 0x6C)]
  | .jsr _ => [(.abs, 0x20)]
  | .rts => [(.impl, 0x60)]
  | .clc => [(.impl, 0x18)]
  | .sec => [(.impl, 0x38)]
  | .cli => [(.impl, 0x58)]
  | .sei => [(.impl, 0x78)]
  | .clv => [(.impl, 0xB8)]
  | .cld => [(.impl, 0xD8)]
  | .sed => [(.impl, 0xF8)]
  | .nop => [(.impl, 0xEA)]
  | .brk => [(.impl, 0x00)]
  | .rti => [(.impl, 0x40)]
  | .ill op _ => [(.imm, op)]

/-- The operand bytes of an operand in memory: `b1`, or `b1` then `b2` with `b2:b1` the 16-bit operand (R124, R129). -/
def Addr.bytes : Addr → List Byte
  | .zpg b1 | .zpx b1 | .zpy b1 | .izx b1 | .izy b1 => [b1]
  | .abs base | .abx base | .aby base => [loByte base, hiByte base]

/-- The operand bytes of an operand that is read. -/
def Src.bytes : Src → List Byte
  | .imm b1 => [b1]
  | .mem m => m.bytes

/-- The operand bytes of a shift. -/
def Tgt.bytes : Tgt → List Byte
  | .acc => []
  | .mem m => m.bytes

/-- The operand bytes of JMP. -/
def JmpTgt.bytes : JmpTgt → List Byte
  | .abs a | .ind a => [loByte a, hiByte a]

/-- The operand bytes of an instruction. -/
def Instr.operandBytes : Instr → List Byte
  | .lda o | .ldx o | .ldy o => o.bytes
  | .sta m | .stx m | .sty m => m.bytes
  | .tax | .tay | .txa | .tya | .tsx | .txs | .pha | .php | .pla | .plp => []
  | .ora o | .and o | .eor o | .adc o | .sbc o | .cmp o | .cpx o | .cpy o => o.bytes
  | .bit m => m.bytes
  | .asl o | .lsr o | .rol o | .ror o => o.bytes
  | .inc m | .dec m => m.bytes
  | .inx | .iny | .dex | .dey => []
  | .bpl b1 | .bmi b1 | .bvc b1 | .bvs b1 | .bcc b1 | .bcs b1 | .bne b1 | .beq b1 => [b1]
  | .jmp o => o.bytes
  | .jsr target => [loByte target, hiByte target]
  | .rts | .clc | .sec | .cli | .sei | .clv | .cld | .sed | .nop | .brk | .rti => []
  | .ill _ b1 => [b1]

/-- The bytes of a well-formed instruction: the opcode of its mnemonic and format, then its operand bytes. A form that
R140 does not list has no encoding, and the list is empty. -/
def encode (i : Instr) : List Byte :=
  match i.opcodes.lookup i.format with
  | some op => op :: i.operandBytes
  | none => []

/-- The instruction the decoder reads from the `nbits` low bits of `w`, bit 0 the least significant bit of the first
byte, every later bit 0 (at most three bytes, R120). -/
def decodeTableWord (nbits w : Nat) : Option Instr :=
  let v := w % 2 ^ nbits
  match decode [BitVec.ofNat 8 v, BitVec.ofNat 8 (v / 256), BitVec.ofNat 8 (v / 65536)] with
  | .ok i _ => some i
  | .rejected _ => none

end Sys2Proof
end

