-- ==== Sys2Proof/Machine/Fetch.lean ====
section
/-! DEFINITION. Fetching an instruction's bytes through the CPU bus (30_encoding R122), and placing bytes where the
next fetch reads them. -/

namespace Sys2Proof.Machine

/-- What a fetch read: the opcode byte, the operand bytes (0 where the format has none), and the state after the reads,
PC still at the opcode byte. -/
structure Fetched where
  op : Byte
  b1 : Byte
  b2 : Byte
  state : State

/-- The fetch of R122: the opcode, then `b1` if `size >= 2`, then `b2` if `size = 3`, each one `MemRead`, and no other
byte. The opcode is kept in the latch `opcode` (10_state R30). -/
def fetch (s : State) : Fetched :=
  let pc0 := s.cpu.pc
  let op := memRead s pc0
  let n := opcodeSize op.1
  let b1 := if 2 ≤ n then memRead op.2 (pc0 + 1) else (0, op.2)
  let b2 := if n = 3 then memRead b1.2 (pc0 + 2) else (0, b1.2)
  ⟨op.1, b1.1, b2.1, b2.2.setOpcode op.1⟩

/-- The instruction a fetch reads. -/
def Fetched.instr (f : Fetched) : Instr := decodeBytes f.op f.b1 f.b2

/-- Whether a byte can be placed at `addr` so that a fetch reads it: PRG, the mapper's RAM, or internal RAM. -/
def placeable (s : State) (addr : Word) : Bool :=
  match s.cart.cpuMapRead s.config.m4PrgRam addr with
  | .prg _ | .served _ => true
  | .notHandled => decide (addr ≤ 0x1FFF)

/-- `v` placed at `addr` (host side: loading a program). PRG is written in the store, everything else through the
bus. -/
def place (s : State) (addr : Word) (v : Byte) : State :=
  match s.cart.cpuMapRead s.config.m4PrgRam addr with
  | .prg off => { s with cart := { s.cart with prg := s.cart.prg.write off v } }
  | .served _ | .notHandled => memWrite s addr v

/-- `s` made ready so that its next master tick is an instruction boundary with no event to take (60_exceptions R306,
61_bus R341): the clock at a CPU cycle, no DMA, no cycles left, nothing pending, and the PPU not at a dot that raises an
NMI (scanline 241, dot 1) or clocks the mapper's counter (dot 260). -/
def atBoundary (s : State) : State :=
  let raising := decide (s.ppu.cycle = 260) || (decide (s.ppu.scanline = 241) && decide (s.ppu.cycle = 1))
  { s with
    cpu := { s.cpu with remainingCycles := 0 }
    systemClock := s.systemClock - s.systemClock % 3
    dma := { s.dma with transfer := false }
    ppu := { s.ppu with nmiLatch := false, cycle := if raising then s.ppu.cycle + 1 else s.ppu.cycle }
    cart := s.cart.irqClear }

/-- The address of the next instruction if its three bytes can be placed there, else $0000 (log 6). -/
def programAddr (s : State) : Word :=
  if placeable s s.cpu.pc && placeable s (s.cpu.pc + 1) && placeable s (s.cpu.pc + 2) then s.cpu.pc else 0

/-- Three bytes placed where the next master tick fetches its instruction. -/
def placeInstr (s : State) (b0 b1 b2 : Byte) : State :=
  let s := (atBoundary s).setPc (programAddr s)
  place (place (place s s.cpu.pc b0) (s.cpu.pc + 1) b1) (s.cpu.pc + 2) b2

end Sys2Proof.Machine
end

