-- ==== Sys2Proof/Machine/Bus.lean ====
section
/-! DEFINITION. The scheduler: a CPU cycle with its interrupt check (60_exceptions R306), and the master tick that
places every agent's step (61_bus R341). -/

namespace Sys2Proof.Machine

/-- `f` after an outcome that gives a state. -/
def andThen (r : Result) (f : State → State) : Result :=
  match r with
  | .next s => .next (f s)
  | .fault e => .fault e
  | .refused e => .refused e

/-- The scratch latch `temp` takes a free value at every boundary event (10_state R30, log 8). -/
def freshTemp (s : State) : State :=
  { s with cpu := { s.cpu with temp := Config.freeTemp s.freeCount }, freeCount := s.freeCount + 1 }

/-- Whether an IRQ is taken at a boundary without an NMI (60_exceptions R308). -/
def irqPending (s : State) : Bool := s.cart.irqState && !flag s.cpu.p .I

/-- One instruction: fetched, decoded and executed (30_encoding R122, R123). -/
def runInstr (s : State) : Result :=
  let f := fetch s
  exec f.instr f.state

/-- An instruction boundary (60_exceptions R306): NMI, else IRQ, else one instruction. -/
def boundary (s : State) : Result :=
  if s.ppu.nmiLatch then .next (takeNmi (freshTemp s))
  else if irqPending s then .next (takeIrq (freshTemp s))
  else runInstr (freshTemp s)

/-- The debit at the end of a CPU cycle (60_exceptions R306). -/
def countCycle (s : State) : State :=
  { s with
    cpu := { s.cpu with
      remainingCycles := s.cpu.remainingCycles - 1
      totalCycleCount := s.cpu.totalCycleCount + 1 } }

/-- `CpuTick()` (60_exceptions R306). -/
def cpuTick (s : State) : Result :=
  if s.cpu.remainingCycles = 0 then andThen (boundary s) countCycle else .next (countCycle s)

/-- The PPU's and then the APU's part of a master tick. -/
def devicesTick (s : State) : State :=
  let x := ppuTick s.ppu s.cart
  { s with ppu := x.1, cart := x.2, apu := s.apu.tick }

/-- The CPU's or the DMA engine's part of a master tick: every third tick (decision D12). -/
def cpuSlot (s : State) : Result :=
  if s.systemClock % 3 = 0 then
    if s.dma.transfer then .next (dmaStep s) else cpuTick s
  else .next s

/-- The end of a master tick: audio pacing, then `system_clock`. -/
def endTick (s : State) : State :=
  let s := audioPace s
  { s with systemClock := s.systemClock + 1 }

/-- `MasterTick()` (61_bus R341). -/
def masterTick (s : State) : Result := andThen (cpuSlot (devicesTick s)) endTick

end Sys2Proof.Machine
end

