-- ==== Sys2Proof/Machine/Step.lean ====
section
/-! DEFINITION. One step of the machine: one master tick (61_bus R341, log 2), with a valid cartridge. -/

namespace Sys2Proof.Machine

/-- One master tick. Without a valid cartridge there is no machine (64_mappers R502, 61_bus R366). -/
def step (s : State) : Host.Outcome State Fault Refusal :=
  if s.cart.valid then masterTick s else .refused .invalidCartridge

/-- `s` with the instruction whose bits are the `nbits` low bits of `w` placed where the very next step fetches it
(log 6). -/
def State.withFetchWord (s : State) (nbits w : Nat) : State :=
  let v := w % 2 ^ nbits
  placeInstr s (BitVec.ofNat 8 v) (BitVec.ofNat 8 (v / 256)) (BitVec.ofNat 8 (v / 65536))

end Sys2Proof.Machine
end

