-- ==== Sys2Proof/Machine/HostActions.lean ====
section
/-! DEFINITION. The host's operations (61_bus R361), each applied between two master ticks (20_memory R105). None is
part of `step`. -/

namespace Sys2Proof.Machine

/-- What the host may do to the machine besides calling `tick()`. -/
inductive HostAction where
  /-- `reset()`. -/
  | reset
  /-- `controller[n] = byte`; `n` true is port 1. -/
  | setController (n : Bool) (v : Byte)
  /-- `sample_rate(rate, speed)`. -/
  | setAudio (rate speed : Rat)
  /-- The clear of `frame_complete` at the end of `drive_one_frame()` (R362). -/
  | clearFrame
  deriving DecidableEq, Repr

/-- A host action on the state. -/
def applyHost (h : HostAction) (s : State) : State :=
  match h with
  | .reset => busReset s
  | .setController n v => if n then { s with controller1 := v } else { s with controller0 := v }
  | .setAudio rate speed => { s with config := { s.config with sampleRate := rate, speed := speed } }
  | .clearFrame => { s with ppu := { s.ppu with frameComplete := false } }

/-- `drive_one_frame()` (R361, R362): ticks until `frame_complete`, then the clear. DESIGN CHOICE (log 32): the flag is
tested after a tick, so there is at least one tick even when it is 1 on entry; and at most `fuel` ticks are made. -/
def driveOneFrame : Nat → State → Result
  | 0, s => .next s
  | fuel + 1, s =>
    match step s with
    | .next s' => if s'.ppu.frameComplete then .next (applyHost .clearFrame s') else driveOneFrame fuel s'
    | .fault e => .fault e
    | .refused e => .refused e

/-- `framebuffer()` (R361, 62_ppu R423): the colour the host shows at a column and a row, 8 bits a component (DESIGN
CHOICE, log 30). -/
def framebufferRgb (s : State) (column row : Nat) : Byte × Byte × Byte :=
  Config.paletteRgb (field (s.ppu.framebuffer.read (row * 256 + column)) 0 6)

/-- The machine that `new(cart_bytes)` builds from a cartridge and parameters, before its first reset: every store of the
machine 0 (70_reset R560, R564); the reset that follows gives every register its value. DESIGN CHOICE (log 33): the CHR
RAM and the cartridge RAM are those the given cartridge carries; the spec's power-on content 0 is the empty store. -/
def powerOn (cart : Cart) (config : Config) : State := { State.reset with cart := cart, config := config }

/-- The machine after `new(cart_bytes)` (R361): power-on, then a reset. -/
def newMachine (cart : Cart) (config : Config) : State := busReset (powerOn cart config)

/-- "Rom swap" (61_bus R366): another cartridge with the RAM it carries (log 33), followed by a reset. -/
def romSwap (cart : Cart) (s : State) : State := busReset { s with cart := cart }

end Sys2Proof.Machine
end

