-- ==== Sys2Proof/Safety.lean ====
section
/-! DEFINITION. What claims call a sound state and a safe run: the invariant that every step keeps, the run without an
illegal opcode, and the addresses whose read has a side effect. -/

namespace Sys2Proof.Machine

/-- The status register at rest (10_state R28): U set, B clear. -/
abbrev Cpu.StatusAtRest (c : Cpu) : Prop := flag c.p .U = true ∧ flag c.p .B = false

/-- The PPU's counters are in range (10_state R41, 62_ppu R403). -/
abbrev Ppu.CountersInRange (p : Ppu) : Prop := -1 ≤ p.scanline ∧ p.scanline ≤ 260 ∧ p.cycle ≤ 340

/-- The sprite cache has its eight units and at most eight in use (10_state R41). -/
abbrev Ppu.SpritesInRange (p : Ppu) : Prop := p.sprites.length = 8 ∧ p.spriteCount ≤ 8

/-- The PPU's stores are in canonical form (log 7). -/
abbrev Ppu.StoresCanonical (p : Ppu) : Prop :=
  p.oam.wf = true ∧ p.nametable.wf = true ∧ p.pattern.wf = true ∧ p.palette.wf = true ∧ p.framebuffer.wf = true

/-- The stores and the serial counter of a mapper (10_state R46). -/
abbrev Mapper.Sound (m : Mapper) : Prop :=
  match m with
  | .m0 | .m2 _ => True
  | .m1 r => r.ram.wf = true ∧ r.loadCount ≤ 4
  | .m4 r => r.ram.wf = true

/-- The cartridge's stores are in canonical form and its mapper is sound. -/
abbrev Cart.Sound (c : Cart) : Prop := c.prg.wf = true ∧ c.chr.wf = true ∧ Mapper.Sound c.mapper

/-- The invariant of the machine between master ticks. -/
structure Inv (s : State) : Prop where
  status : Cpu.StatusAtRest s.cpu
  counters : Ppu.CountersInRange s.ppu
  sprites : Ppu.SpritesInRange s.ppu
  ram : s.ram.wf = true
  ppuStores : Ppu.StoresCanonical s.ppu
  cart : Cart.Sound s.cart
  /-- `frame_counter` between ticks (10_state R44). -/
  frameCounter : s.apu.frameCounter ≤ 14915
  /-- `apu_clock = system_clock` always (63_apu R450). -/
  apuClock : s.apu.apuClock = s.systemClock

/-- No illegal opcode has been executed so far (60_exceptions R303). -/
def NoIllegalOpcode (s : State) : Prop := s.illegalTrace = []

/-- A step that completes: neither a fault nor a refusal. -/
def Completes (r : Result) : Prop := ∃ t, r = .next t

/-- An address in the range of the PPU registers and their mirrors (20_memory R88). -/
abbrev PpuRange (a : Word) : Prop := 0x2000 ≤ a ∧ a ≤ 0x3FFF

/-- The addresses whose read has a side effect (20_memory R95): PPUSTATUS and PPUDATA with their mirrors, and the two
controller ports. -/
abbrev SideEffect (a : Word) : Prop :=
  (PpuRange a ∧ (field a 0 3 = (2 : BitVec 3) ∨ field a 0 3 = (7 : BitVec 3))) ∨ a = 0x4016 ∨ a = 0x4017

/-- Two addresses of one cell of internal RAM (20_memory R87). -/
abbrev SameCell (a b : Word) : Prop := a ≤ 0x1FFF ∧ b ≤ 0x1FFF ∧ a &&& 0x07FF = b &&& 0x07FF

end Sys2Proof.Machine
end

