-- ==== Sys2Proof/Certificates/Slice0/Obligations.lean ====
section
/-! DEFINITION. The statements for the provers, one `def Obligations.<Name> : Prop` each, after the words they are
written in (namespace `Sys2Proof.Claims`). -/

namespace Sys2Proof.Claims

open Sys2Proof.Machine

/-! ## Words of the statements about instructions -/

/-- The 8-bit registers an instruction may write. -/
inductive Reg where
  | A | X | Y | S
  deriving DecidableEq, Repr

/-- The value of a register. -/
def Reg.get (r : Reg) (s : State) : Byte :=
  match r with
  | .A => s.cpu.a
  | .X => s.cpu.x
  | .Y => s.cpu.y
  | .S => s.cpu.sp

/-- Every register but those listed is unchanged. -/
def RegsKept (rs : List Reg) (s t : State) : Prop := ∀ r, r ∉ rs → r.get t = r.get s

/-- Every flag but those listed is unchanged. -/
def FlagsKept (fs : List Flag) (s t : State) : Prop := ∀ f, f ∉ fs → flag t.cpu.p f = flag s.cpu.p f

/-- `SetNZ(v)` happened (00_scope R11). -/
def FlagsNZ (v : Byte) (t : State) : Prop :=
  (flag t.cpu.p .Z = true ↔ v = 0) ∧ (flag t.cpu.p .N = true ↔ 128 ≤ v.toNat)

/-- The next instruction is at `pc`, `cycles` CPU cycles are to be debited, and the cycle count is untouched. -/
def Ends (s t : State) (pc : Word) (cycles : Nat) : Prop :=
  t.cpu.pc = pc ∧ t.cpu.remainingCycles = cycles ∧ t.cpu.totalCycleCount = s.cpu.totalCycleCount

/-- Everything outside the CPU's registers is as in `u`. -/
def OutsideCpu (t u : State) : Prop := t = { u with cpu := t.cpu }

/-- Every address of the CPU bus reads as before. -/
def MemoryKept (s t : State) : Prop := ∀ a, peek t a = peek s a

/-- The address of the instruction that follows one of `n` bytes. -/
def after (s : State) (n : Nat) : Word := s.cpu.pc + BitVec.ofNat 16 n

/-- The opcode byte `op` decodes to `i` of its operand bytes, whatever they are (30_encoding R140, R147). -/
def Decodes (op : Byte) (i : Byte → Byte → Instr) : Prop := ∀ b1 b2, decodeBytes op b1 b2 = i b1 b2

/-- The eight encodings of an instruction of the column c = 1 (30_encoding R140), `base` the opcode's top three bits. -/
def AluEncodings (base : Byte) (i : Src → Instr) : Prop :=
  Decodes (base + 0x01) (fun b1 _ => i (.mem (.izx b1))) ∧
  Decodes (base + 0x05) (fun b1 _ => i (.mem (.zpg b1))) ∧
  Decodes (base + 0x09) (fun b1 _ => i (.imm b1)) ∧
  Decodes (base + 0x0D) (fun b1 b2 => i (.mem (.abs (join b2 b1)))) ∧
  Decodes (base + 0x11) (fun b1 _ => i (.mem (.izy b1))) ∧
  Decodes (base + 0x15) (fun b1 _ => i (.mem (.zpx b1))) ∧
  Decodes (base + 0x19) (fun b1 b2 => i (.mem (.aby (join b2 b1)))) ∧
  Decodes (base + 0x1D) (fun b1 b2 => i (.mem (.abx (join b2 b1))))

/-- The operand value `M` (30_encoding R137). -/
def operandByte (o : Src) (s : State) : Byte :=
  match o with
  | .imm b1 => b1
  | .mem m => peek s (effAddr m s).ea

/-- Whether the operand's index crossed a page (30_encoding R130, R131, R133). -/
def operandCross (o : Src) (s : State) : Bool :=
  match o with
  | .imm _ => false
  | .mem m => (effAddr m s).cross

/-- The state after the operand's one bus read; no read for an immediate operand (40 R170, 42 R210). -/
def afterOperand (o : Src) (s : State) : State :=
  match o with
  | .imm _ => s
  | .mem m => (memRead s (effAddr m s).ea).2

/-- The read of the operand cannot change what a read of `a` answers: the operand's address has no side effect, or `a`
belongs to another device (20_memory R95). -/
def OperandSpares (o : Src) (s : State) (a : Word) : Prop :=
  match o with
  | .imm _ => True
  | .mem m => SideEffect (effAddr m s).ea → a ≠ (effAddr m s).ea ∧ ¬ (PpuRange (effAddr m s).ea ∧ PpuRange a)

/-- The base count of a read instruction by its format (30_encoding R140). -/
def readBase : Format → Nat
  | .imm => 2
  | .zpg => 3
  | .izx => 6
  | .izy => 5
  | .zpx | .zpy | .abs | .abx | .aby => 4
  | .impl | .acc | .rel | .ind => 0

/-- The count of a store by its format (30_encoding R140). -/
def storeBase : Format → Nat
  | .zpg => 3
  | .zpx | .zpy | .abs => 4
  | .abx | .aby => 5
  | .izx | .izy => 6
  | .imm | .impl | .acc | .rel | .ind => 0

/-- One extra cycle (70_reset R576). -/
def extra (b : Bool) : Nat := if b then 1 else 0

/-- An instruction that reads one operand completes: it writes at most the registers `rs` and the flags `fs`, moves on
by its size, takes its base count and the page-cross cycle, and changes nothing else but what the operand's one bus
read changes. -/
structure ReadOp (i : Instr) (o : Src) (rs : List Reg) (fs : List Flag) (s t : State) : Prop where
  next : exec i s = .next t
  regs : RegsKept rs s t
  flags : FlagsKept fs s t
  ends : Ends s t (after s o.format.size) (readBase o.format + extra (operandCross o s))
  outside : OutsideCpu t (afterOperand o s)
  memory : ∀ a, OperandSpares o s a → peek t a = peek s a

/-- What a write of `ea` may change the answer of: the mirrors of its RAM cell, the PPU's registers, the cartridge
space at $8000 and above through a mapper register, and `ea` itself. -/
def StoreReaches (ea a : Word) : Prop :=
  SameCell ea a ∨ (PpuRange ea ∧ PpuRange a) ∨ (0x8000 ≤ ea ∧ 0x8000 ≤ a) ∨ a = ea

/-- A store completes: the one bus write of `v` at its effective address, no register, no flag. -/
structure StoreOp (i : Instr) (m : Addr) (v : Byte) (s t : State) : Prop where
  next : exec i s = .next t
  regs : RegsKept [] s t
  flags : t.cpu.p = s.cpu.p
  ends : Ends s t (after s m.format.size) (storeBase m.format)
  outside : OutsideCpu t (memWrite s (effAddr m s).ea v)
  stored : ∀ a, SameCell (effAddr m s).ea a → peek t a = v
  memory : ∀ a, ¬ StoreReaches (effAddr m s).ea a → peek t a = peek s a

/-- The cartridge's RAM at $6000 to $7FFF: M1's, and M4's under the parameter `M4_PRG_RAM` (64_mappers R521, R535). -/
def cartRam (s : State) : Option Memory :=
  match s.cart.mapper with
  | .m1 r => some r.ram
  | .m4 r => if s.config.m4PrgRam then some r.ram else none
  | .m0 | .m2 _ => none

/-- The machine with `m` as the RAM of its mapper. -/
def withCartRam (s : State) (m : Memory) : State :=
  match s.cart.mapper with
  | .m1 r => { s with cart := { s.cart with mapper := .m1 { r with ram := m } } }
  | .m4 r => { s with cart := { s.cart with mapper := .m4 { r with ram := m } } }
  | .m0 | .m2 _ => s

/-- The count of a read-modify-write of memory by its format (30_encoding R140). -/
def modifyBase : Format → Nat
  | .zpg => 5
  | .zpx | .abs => 6
  | .abx => 7
  | .imm | .impl | .acc | .rel | .ind | .zpy | .aby | .izx | .izy => 0

/-- A read-modify-write of memory completes: one bus read of its effective address, then one bus write of `r` there. -/
structure ModifyOp (i : Instr) (m : Addr) (r : Byte) (fs : List Flag) (s t : State) : Prop where
  next : exec i s = .next t
  regs : RegsKept [] s t
  flags : FlagsKept fs s t
  pc : t.cpu.pc = after s m.format.size
  cycles : m.format ∈ [.zpg, .zpx, .abs, .abx] → t.cpu.remainingCycles = modifyBase m.format
  outside : OutsideCpu t (memWrite (memRead s (effAddr m s).ea).2 (effAddr m s).ea r)
  stored : ∀ a, SameCell (effAddr m s).ea a → peek t a = r
  memory : ∀ a, ¬ StoreReaches (effAddr m s).ea a → peek t a = peek s a

/-- An instruction that touches nothing outside the CPU completes. -/
structure RegOp (i : Instr) (rs : List Reg) (fs : List Flag) (size cycles : Nat) (s t : State) : Prop where
  next : exec i s = .next t
  regs : RegsKept rs s t
  flags : FlagsKept fs s t
  ends : Ends s t (after s size) cycles
  outside : OutsideCpu t s
  memory : MemoryKept s t

/-- Outside the CPU only internal RAM differs. -/
def OnlyRam (t u : State) : Prop := t = { u with cpu := t.cpu, ram := t.ram }

/-- The three cells of an entry's frame, seen through the bus: the return address and the status byte `q` below the
stack pointer, everything else as before (60_exceptions R310, 45 R279). -/
def FramePushed (ret : Word) (q : Byte) (s t : State) : Prop :=
  ∀ a, peek t a =
    if SameCell (stackAddr s.cpu.sp) a then hiByte ret
    else if SameCell (stackAddr (s.cpu.sp - 1)) a then loByte ret
    else if SameCell (stackAddr (s.cpu.sp - 2)) a then q
    else peek s a

/-- The registers after an entry: S lower by three, I and U set, B clear, PC from the vector; A, X, Y and the other
flags unchanged. -/
def EntryRegs (vec : Word) (s t : State) : Prop :=
  t.cpu.pc = join (peek s (vec + 1)) (peek s vec) ∧ t.cpu.sp = s.cpu.sp - 3 ∧ RegsKept [.S] s t ∧
  flag t.cpu.p .I = true ∧ flag t.cpu.p .U = true ∧ flag t.cpu.p .B = false ∧ FlagsKept [.I, .U, .B] s t

end Sys2Proof.Claims

open Sys2Proof Sys2Proof.Machine Sys2Proof.Claims

/-! ## Encoding -/

/-- 30_encoding R120, R124, R140, R141, R147: the decoder reads from the bytes of a well-formed instruction that
instruction, with every operand, and leaves the bytes after it. -/
def Obligations.DecodeEncodeRoundTrip : Prop :=
  ∀ (i : Instr) (rest : List Byte), i.WellFormed → decode (encode i ++ rest) = .ok i rest

/-- 30_encoding R147: every byte decodes, to a well-formed instruction whose bytes are the ones that were read; the two
transcriptions of the opcode map (R140, R141) agree both ways. -/
def Obligations.EveryByteDecodesAndEncodesBack : Prop :=
  ∀ op b1 b2 : Byte, (decodeBytes op b1 b2).WellFormed ∧
    encode (decodeBytes op b1 b2) = [op, b1, b2].take (decodeBytes op b1 b2).size

/-- 30_encoding R120, R144: the first byte alone determines the length, 1, 2 or 3, and the operation; the operand bytes
never make decoding fail (R148). -/
def Obligations.FirstByteFixesLengthAndFormat : Prop :=
  ∀ op b1 b2 c1 c2 : Byte,
    (decodeBytes op b1 b2).format = (decodeBytes op c1 c2).format ∧
    (decodeBytes op b1 b2).opcodes = (decodeBytes op c1 c2).opcodes ∧
    (decodeBytes op b1 b2).size ∈ [1, 2, 3] ∧
    ∀ rest, decode (op :: b1 :: b2 :: rest) =
      .ok (decodeBytes op b1 b2) ((op :: b1 :: b2 :: rest).drop (decodeBytes op b1 b2).size)

/-- 30_encoding R142: the 105 listed bytes, among them every byte whose low two bits are 3, are the ones that decode to
ILL, with format imm and size 2. -/
def Obligations.IllegalOpcodesAreTheListedBytes : Prop :=
  illegalOpcodes.length = 105 ∧ illegalOpcodes.Nodup ∧
  (∀ op : Byte, op &&& 3 = 3 → op ∈ illegalOpcodes) ∧
  ∀ op b1 b2 : Byte,
    (op ∈ illegalOpcodes ↔ ∃ x y, decodeBytes op b1 b2 = .ill x y) ∧
    (op ∈ illegalOpcodes → decodeBytes op b1 b2 = .ill op b1 ∧ (decodeBytes op b1 b2).format = .imm ∧
      (decodeBytes op b1 b2).size = 2)

/-- Words written out from the encodings of 30_encoding R140 and from the examples of files 40 to 45 decode to the
instructions they stand for. -/
def Obligations.SpecWordsDecode : Prop :=
  decode [0xA9, 0x80] = .ok (.lda (.imm 0x80)) [] ∧
  decode [0x94, 0xF0] = .ok (.sty (.zpx 0xF0)) [] ∧
  decode [0xBA] = .ok .tsx [] ∧
  decode [0x69, 0x50] = .ok (.adc (.imm 0x50)) [] ∧
  decode [0x2C, 0x02, 0x20] = .ok (.bit (.abs 0x2002)) [] ∧
  decode [0x1E, 0xFF, 0x00] = .ok (.asl (.mem (.abx 0x00FF))) [] ∧
  decode [0x6C, 0xFF, 0x02] = .ok (.jmp (.ind 0x02FF)) [] ∧
  decode [0x20, 0x34, 0x12] = .ok (.jsr 0x1234) [] ∧
  decode [0x00, 0xFF] = .ok .brk [0xFF] ∧
  decode [0x02, 0xFF] = .ok (.ill 0x02 0xFF) []

/-- 30_encoding R126 to R134: the effective address of each form from the operand bytes, the index registers and RAM,
the page-cross bit, and no change but to the latch `absolute_addr` (log 9). -/
def Obligations.EffectiveAddresses : Prop :=
  ∀ (s : State) (b1 : Byte) (base : Word),
    let ptr (p : Byte) : Word := join (s.ram.read ((p + 1).toNat)) (s.ram.read p.toNat)
    let indexed (base : Word) (i : Byte) : Word := BitVec.ofNat 16 (base.toNat + i.toNat)
    let crosses (base : Word) (i : Byte) : Bool := decide ((indexed base i).toNat / 256 ≠ base.toNat / 256)
    let gives (m : Addr) (ea : Word) (cross : Bool) : Prop :=
      (effAddr m s).ea = ea ∧ (effAddr m s).cross = cross ∧ OutsideCpu (effAddr m s).state s ∧
      (effAddr m s).state.cpu = { s.cpu with absoluteAddr := ea }
    gives (.zpg b1) (BitVec.ofNat 16 b1.toNat) false ∧
    gives (.zpx b1) (BitVec.ofNat 16 ((b1.toNat + s.cpu.x.toNat) % 256)) false ∧
    gives (.zpy b1) (BitVec.ofNat 16 ((b1.toNat + s.cpu.y.toNat) % 256)) false ∧
    gives (.abs base) base false ∧
    gives (.abx base) (indexed base s.cpu.x) (crosses base s.cpu.x) ∧
    gives (.aby base) (indexed base s.cpu.y) (crosses base s.cpu.y) ∧
    gives (.izx b1) (ptr (b1 + s.cpu.x)) false ∧
    gives (.izy b1) (indexed (ptr b1) s.cpu.y) (crosses (ptr b1) s.cpu.y)

/-- 60_exceptions R306, 30_encoding R122: at an instruction boundary with no interrupt to take, a step is the devices'
dot, the meaning of the instruction whose bytes lie at PC, one debited cycle and the end of the tick. The bytes are
read through the bus; the free value of `temp` and the latch `opcode` are the model's own (logs 8, 9). -/
def Obligations.StepRunsTheDecodedInstruction : Prop :=
  ∀ (s : State) (i : Instr) (rest : List Byte), s.cart.valid = true → s.systemClock % 3 = 0 →
    s.dma.transfer = false → s.cpu.remainingCycles = 0 →
    let d := devicesTick s
    d.ppu.nmiLatch = false → ¬ (d.cart.irqState = true ∧ flag d.cpu.p .I = false) →
    (∀ k < i.size, ¬ SideEffect (s.cpu.pc + BitVec.ofNat 16 k)) →
    decode [peek d s.cpu.pc, peek d (s.cpu.pc + 1), peek d (s.cpu.pc + 2)] = .ok i rest →
    step s = andThen (exec i ((freshTemp d).setOpcode (peek d s.cpu.pc))) (fun u => endTick (countCycle u))

/-! ## Memory -/

/-- 20_memory R87: the byte at an address of the region is `RAM[addr & $07FF]`, so the four images of a cell are one
cell. A write of one image is read at every image; no other address of the bus and nothing but RAM changes, and a read
has no side effect. -/
def Obligations.RamIsMirroredEvery0800 : Prop :=
  ∀ (s : State) (a : Word) (v : Byte), a ≤ 0x1FFF →
    memRead s a = (s.ram.read (a.toNat % 0x0800), s) ∧ OnlyRam (memWrite s a v) s ∧ (memWrite s a v).cpu = s.cpu ∧
    ∀ b, peek (memWrite s a v) b = if SameCell a b then v else peek s b

/-- 20_memory R92, R89: an address nobody handles reads 0 and ignores writes: $4018 to $5FFF always, $6000 to $7FFF on
M0, M2 and on M4 without the parameter; $4000 to $4015 read 0. -/
def Obligations.UnhandledAddressesReadZero : Prop :=
  ∀ (s : State) (a : Word) (v : Byte),
    let noRam : Prop := match s.cart.mapper with
      | .m0 | .m2 _ => True
      | .m1 _ => False
      | .m4 _ => s.config.m4PrgRam = false
    (0x4000 ≤ a ∧ a ≤ 0x4015 → memRead s a = (0, s)) ∧
    (0x4018 ≤ a ∧ a ≤ 0x5FFF → memRead s a = (0, s) ∧ memWrite s a v = s) ∧
    (noRam → 0x6000 ≤ a ∧ a ≤ 0x7FFF → memRead s a = (0, s) ∧ memWrite s a v = s)

/-- 20_memory R95: only reads of PPUSTATUS, PPUDATA, their mirrors and the controller ports have a side effect, and it
stays inside the device: a read of one of the PPU's registers changes what no address outside the PPU's range answers,
and a controller read what no other address answers. -/
def Obligations.ReadsAffectOnlyTheirDevice : Prop :=
  ∀ (s : State) (a b : Word),
    (¬ SideEffect a → (memRead s a).2 = s) ∧
    (PpuRange a → (memRead s a).2 = { s with ppu := (memRead s a).2.ppu } ∧
      (¬ PpuRange b → peek (memRead s a).2 b = peek s b)) ∧
    (a = 0x4016 → (memRead s a).2 = { s with ctrlShift0 := s.ctrlShift0 <<< 1 }) ∧
    (a = 0x4017 → (memRead s a).2 = { s with ctrlShift1 := s.ctrlShift1 <<< 1 })

/-- 20_memory R86 to R93, 64_mappers R521, R535: which reads a write can change the answer of, for every address of the
map, and that no write changes the CPU, PRG, the cartridge's geometry, the host inputs, the clock or the parameters. On
M1, and on M4 with the parameter, an address of $6000 to $7FFF is the cell of cartridge RAM at its low 13 bits: a read
answers it and changes nothing, a write is read back there and changes no other cell and nothing else, whatever M4's
protect register holds. -/
def Obligations.WritesReachOnlyTheirRegion : Prop :=
  ∀ (s : State) (ea : Word) (v : Byte),
    (∀ a, ¬ StoreReaches ea a → peek (memWrite s ea v) a = peek s a) ∧
    (memWrite s ea v).cpu = s.cpu ∧ (memWrite s ea v).cart.prg = s.cart.prg ∧
    (memWrite s ea v).cart.prgBanks = s.cart.prgBanks ∧ (memWrite s ea v).cart.chrBanks = s.cart.chrBanks ∧
    (memWrite s ea v).controller0 = s.controller0 ∧ (memWrite s ea v).controller1 = s.controller1 ∧
    (memWrite s ea v).systemClock = s.systemClock ∧ (memWrite s ea v).config = s.config ∧
    ∀ ram, cartRam s = some ram → 0x6000 ≤ ea → ea ≤ 0x7FFF →
      memRead s ea = (ram.read (ea.toNat % 0x2000), s) ∧
      (∀ a, peek (memWrite s ea v) a = if a = ea then v else peek s a) ∧
      ∃ ram' : Memory, memWrite s ea v = withCartRam s ram' ∧
        ∀ k, ram'.read k = if k = ea.toNat % 0x2000 then v else ram.read k

/-! ## Load, store, transfer, stack -/

/-- 40 R171, R172, R173: LDA, LDX and LDY complete in every form; the register receives the operand, N and Z describe
it, and nothing else changes but what the operand's read changes. -/
def Obligations.LoadsSetTheRegister : Prop :=
  (AluEncodings 0xA0 .lda ∧
    Decodes 0xA2 (fun b1 _ => .ldx (.imm b1)) ∧ Decodes 0xA6 (fun b1 _ => .ldx (.mem (.zpg b1))) ∧
    Decodes 0xB6 (fun b1 _ => .ldx (.mem (.zpy b1))) ∧ Decodes 0xAE (fun b1 b2 => .ldx (.mem (.abs (join b2 b1)))) ∧
    Decodes 0xBE (fun b1 b2 => .ldx (.mem (.aby (join b2 b1)))) ∧
    Decodes 0xA0 (fun b1 _ => .ldy (.imm b1)) ∧ Decodes 0xA4 (fun b1 _ => .ldy (.mem (.zpg b1))) ∧
    Decodes 0xB4 (fun b1 _ => .ldy (.mem (.zpx b1))) ∧ Decodes 0xAC (fun b1 b2 => .ldy (.mem (.abs (join b2 b1)))) ∧
    Decodes 0xBC (fun b1 b2 => .ldy (.mem (.abx (join b2 b1))))) ∧
  ∀ (o : Src) (s : State),
    (∃ t, ReadOp (.lda o) o [.A] [.N, .Z] s t ∧ t.cpu.a = operandByte o s ∧ FlagsNZ t.cpu.a t) ∧
    (∃ t, ReadOp (.ldx o) o [.X] [.N, .Z] s t ∧ t.cpu.x = operandByte o s ∧ FlagsNZ t.cpu.x t) ∧
    (∃ t, ReadOp (.ldy o) o [.Y] [.N, .Z] s t ∧ t.cpu.y = operandByte o s ∧ FlagsNZ t.cpu.y t)

/-- 40 R174, R175, R176: STA, STX and STY complete in every form with the one bus write of the register at the
effective address; no register, no flag, no page-cross cycle. -/
def Obligations.StoresWriteTheRegister : Prop :=
  (Decodes 0x85 (fun b1 _ => .sta (.zpg b1)) ∧ Decodes 0x95 (fun b1 _ => .sta (.zpx b1)) ∧
    Decodes 0x8D (fun b1 b2 => .sta (.abs (join b2 b1))) ∧ Decodes 0x9D (fun b1 b2 => .sta (.abx (join b2 b1))) ∧
    Decodes 0x99 (fun b1 b2 => .sta (.aby (join b2 b1))) ∧ Decodes 0x81 (fun b1 _ => .sta (.izx b1)) ∧
    Decodes 0x91 (fun b1 _ => .sta (.izy b1)) ∧ Decodes 0x89 (fun b1 _ => .ill 0x89 b1) ∧
    Decodes 0x86 (fun b1 _ => .stx (.zpg b1)) ∧ Decodes 0x96 (fun b1 _ => .stx (.zpy b1)) ∧
    Decodes 0x8E (fun b1 b2 => .stx (.abs (join b2 b1))) ∧ Decodes 0x9E (fun b1 _ => .ill 0x9E b1) ∧
    Decodes 0x84 (fun b1 _ => .sty (.zpg b1)) ∧ Decodes 0x94 (fun b1 _ => .sty (.zpx b1)) ∧
    Decodes 0x8C (fun b1 b2 => .sty (.abs (join b2 b1))) ∧ Decodes 0x9C (fun b1 _ => .ill 0x9C b1)) ∧
  ∀ (m : Addr) (s : State),
    (∃ t, StoreOp (.sta m) m s.cpu.a s t) ∧ (∃ t, StoreOp (.stx m) m s.cpu.x s t) ∧
    (∃ t, StoreOp (.sty m) m s.cpu.y s t)

/-- 41 R191 to R196: the transfers complete; TAX, TAY, TXA, TYA and TSX set N and Z from the value, TXS no flag. -/
def Obligations.TransfersCopyTheRegister : Prop :=
  (Decodes 0xAA (fun _ _ => .tax) ∧ Decodes 0xA8 (fun _ _ => .tay) ∧ Decodes 0x8A (fun _ _ => .txa) ∧
    Decodes 0x98 (fun _ _ => .tya) ∧ Decodes 0xBA (fun _ _ => .tsx) ∧ Decodes 0x9A (fun _ _ => .txs)) ∧
  ∀ s : State,
    (∃ t, RegOp .tax [.X] [.N, .Z] 1 2 s t ∧ t.cpu.x = s.cpu.a ∧ FlagsNZ s.cpu.a t) ∧
    (∃ t, RegOp .tay [.Y] [.N, .Z] 1 2 s t ∧ t.cpu.y = s.cpu.a ∧ FlagsNZ s.cpu.a t) ∧
    (∃ t, RegOp .txa [.A] [.N, .Z] 1 2 s t ∧ t.cpu.a = s.cpu.x ∧ FlagsNZ s.cpu.x t) ∧
    (∃ t, RegOp .tya [.A] [.N, .Z] 1 2 s t ∧ t.cpu.a = s.cpu.y ∧ FlagsNZ s.cpu.y t) ∧
    (∃ t, RegOp .tsx [.X] [.N, .Z] 1 2 s t ∧ t.cpu.x = s.cpu.sp ∧ FlagsNZ s.cpu.sp t) ∧
    (∃ t, RegOp .txs [.S] [] 1 2 s t ∧ t.cpu.sp = s.cpu.x)

/-- 41 R197, R198, 10_state R24: PHA and PHP complete; one cell of page 1 (with its mirrors) receives A, or P with B and
U set, and S wraps downward; P is unchanged. -/
def Obligations.PushesWriteOneStackCell : Prop :=
  (Decodes 0x48 (fun _ _ => .pha) ∧ Decodes 0x08 (fun _ _ => .php)) ∧
  ∀ s : State,
    let pushes (i : Instr) (v : Byte) : Prop :=
      ∃ t, exec i s = .next t ∧ t.cpu.sp = s.cpu.sp - 1 ∧ RegsKept [.S] s t ∧ t.cpu.p = s.cpu.p ∧
        Ends s t (after s 1) 3 ∧ OnlyRam t s ∧
        ∀ a, peek t a = if SameCell (stackAddr s.cpu.sp) a then v else peek s a
    pushes .pha s.cpu.a ∧ pushes .php (s.cpu.p ||| 0x30)

/-- 41 R199, R200, 10_state R24: PLA and PLP complete; the byte above S is pulled into A with N and Z, or into P without
its bits 4 and 5 (B clear, U set), and S wraps upward; memory is unchanged. -/
def Obligations.PullsReadOneStackCell : Prop :=
  (Decodes 0x68 (fun _ _ => .pla) ∧ Decodes 0x28 (fun _ _ => .plp)) ∧
  ∀ s : State,
    (∃ t, RegOp .pla [.A, .S] [.N, .Z] 1 4 s t ∧ t.cpu.sp = s.cpu.sp + 1 ∧
      t.cpu.a = peek s (stackAddr (s.cpu.sp + 1)) ∧ FlagsNZ t.cpu.a t) ∧
    (∃ t, RegOp .plp [.S] [.C, .Z, .I, .D, .V, .N, .B, .U] 1 4 s t ∧ t.cpu.sp = s.cpu.sp + 1 ∧
      t.cpu.p = (peek s (stackAddr (s.cpu.sp + 1)) &&& 0xCF) ||| 0x20)

/-! ## Logic, arithmetic, compare -/

/-- 42 R211, R212, R213: ORA, AND and EOR complete in every form with the bitwise result in A and N, Z from it; C and V
unchanged. -/
def Obligations.LogicWritesTheAccumulator : Prop :=
  (AluEncodings 0x00 .ora ∧ AluEncodings 0x20 .and ∧ AluEncodings 0x40 .eor) ∧
  ∀ (o : Src) (s : State),
    (∃ t, ReadOp (.ora o) o [.A] [.N, .Z] s t ∧ FlagsNZ t.cpu.a t ∧
      ∀ k, t.cpu.a.getLsbD k = (s.cpu.a.getLsbD k || (operandByte o s).getLsbD k)) ∧
    (∃ t, ReadOp (.and o) o [.A] [.N, .Z] s t ∧ FlagsNZ t.cpu.a t ∧
      ∀ k, t.cpu.a.getLsbD k = (s.cpu.a.getLsbD k && (operandByte o s).getLsbD k)) ∧
    (∃ t, ReadOp (.eor o) o [.A] [.N, .Z] s t ∧ FlagsNZ t.cpu.a t ∧
      ∀ k, t.cpu.a.getLsbD k = xor (s.cpu.a.getLsbD k) ((operandByte o s).getLsbD k))

/-- 42 R214: ADC completes in every form: the exact sum modulo 256, C the unsigned carry, V the signed overflow (both
inputs of one sign, the result of the other), N and Z from the result; D is not read (decision D3). -/
def Obligations.AdcAddsWithCarry : Prop :=
  AluEncodings 0x60 .adc ∧
  ∀ (o : Src) (s : State), ∃ t, ReadOp (.adc o) o [.A] [.C, .V, .N, .Z] s t ∧
    let m := operandByte o s
    let c := (flag s.cpu.p .C).toNat
    t.cpu.a.toNat = (s.cpu.a.toNat + m.toNat + c) % 256 ∧
    (flag t.cpu.p .C = true ↔ 255 < s.cpu.a.toNat + m.toNat + c) ∧
    (flag t.cpu.p .V = true ↔ (~~~(s.cpu.a ^^^ m)) &&& (s.cpu.a ^^^ t.cpu.a) &&& 0x80 ≠ 0) ∧
    FlagsNZ t.cpu.a t

/-- 42 R215: SBC completes in every form: A minus the operand minus the borrow, modulo 256; C says that no borrow
occurred; V by the formula on the complemented operand; N and Z from the result. -/
def Obligations.SbcSubtractsWithBorrow : Prop :=
  AluEncodings 0xE0 .sbc ∧
  ∀ (o : Src) (s : State), ∃ t, ReadOp (.sbc o) o [.A] [.C, .V, .N, .Z] s t ∧
    let m := operandByte o s
    let borrow := (!flag s.cpu.p .C).toNat
    t.cpu.a.toNat = (s.cpu.a.toNat + 256 - m.toNat + 256 - borrow) % 256 ∧
    (flag t.cpu.p .C = true ↔ m.toNat + borrow ≤ s.cpu.a.toNat) ∧
    (flag t.cpu.p .V = true ↔ (~~~(s.cpu.a ^^^ (m ^^^ 0xFF))) &&& (s.cpu.a ^^^ t.cpu.a) &&& 0x80 ≠ 0) ∧
    FlagsNZ t.cpu.a t

/-- 42 R220: V is the signed overflow: set exactly when the two's-complement sum or difference does not fit in eight
bits. -/
def Obligations.OverflowIsSignedOverflow : Prop :=
  ∀ (o : Src) (s t : State),
    let m := operandByte o s
    let c : Int := if flag s.cpu.p .C then 1 else 0
    (exec (.adc o) s = .next t →
      (flag t.cpu.p .V = true ↔ s.cpu.a.toInt + m.toInt + c < -128 ∨ 127 < s.cpu.a.toInt + m.toInt + c)) ∧
    (exec (.sbc o) s = .next t →
      (flag t.cpu.p .V = true ↔ s.cpu.a.toInt - m.toInt - (1 - c) < -128 ∨ 127 < s.cpu.a.toInt - m.toInt - (1 - c)))

/-- 42 R216, R217, R218: CMP, CPX and CPY complete in every form, write no register, and set C when the register is not
below the operand, Z when they are equal, N to bit 7 of the difference; V unchanged. -/
def Obligations.ComparesSetCarryZeroNegative : Prop :=
  (AluEncodings 0xC0 .cmp ∧
    Decodes 0xE0 (fun b1 _ => .cpx (.imm b1)) ∧ Decodes 0xE4 (fun b1 _ => .cpx (.mem (.zpg b1))) ∧
    Decodes 0xEC (fun b1 b2 => .cpx (.mem (.abs (join b2 b1)))) ∧
    Decodes 0xC0 (fun b1 _ => .cpy (.imm b1)) ∧ Decodes 0xC4 (fun b1 _ => .cpy (.mem (.zpg b1))) ∧
    Decodes 0xCC (fun b1 b2 => .cpy (.mem (.abs (join b2 b1))))) ∧
  ∀ (o : Src) (s : State),
    let compares (i : Instr) (r : Byte) : Prop :=
      ∃ t, ReadOp i o [] [.C, .Z, .N] s t ∧
        (flag t.cpu.p .C = true ↔ (operandByte o s).toNat ≤ r.toNat) ∧
        (flag t.cpu.p .Z = true ↔ r = operandByte o s) ∧
        (flag t.cpu.p .N = true ↔ 128 ≤ (r.toNat + 256 - (operandByte o s).toNat) % 256)
    compares (.cmp o) s.cpu.a ∧ compares (.cpx o) s.cpu.x ∧ compares (.cpy o) s.cpu.y

/-- 42 R219: BIT completes: Z says that A and the operand are disjoint, N and V are bits 7 and 6 of the operand; A and C
unchanged. -/
def Obligations.BitTestsTheOperand : Prop :=
  (Decodes 0x24 (fun b1 _ => .bit (.zpg b1)) ∧ Decodes 0x2C (fun b1 b2 => .bit (.abs (join b2 b1))) ∧
    Decodes 0x89 (fun b1 _ => .ill 0x89 b1)) ∧
  ∀ (m : Addr) (s : State), ∃ t, ReadOp (.bit m) (.mem m) [] [.Z, .N, .V] s t ∧
    (flag t.cpu.p .Z = true ↔ s.cpu.a &&& operandByte (.mem m) s = 0) ∧
    flag t.cpu.p .N = (operandByte (.mem m) s).getLsbD 7 ∧ flag t.cpu.p .V = (operandByte (.mem m) s).getLsbD 6

/-! ## Shift, increment -/

/-- The result and the carry of each shift of `m` with the carry `c` in, as numbers (43 R231 to R234). -/
def Sys2Proof.Claims.ShiftGives (i : Tgt → Instr) (result carryOut : Byte → Nat → Nat) : Prop :=
  ∀ (s : State),
    let c := (flag s.cpu.p .C).toNat
    (∃ t, RegOp (i .acc) [.A] [.C, .N, .Z] 1 2 s t ∧ t.cpu.a.toNat = result s.cpu.a c ∧
      (flag t.cpu.p .C).toNat = carryOut s.cpu.a c ∧ FlagsNZ t.cpu.a t) ∧
    ∀ m : Addr, ∃ t r, ModifyOp (i (.mem m)) m r [.C, .N, .Z] s t ∧
      r.toNat = result (peek s (effAddr m s).ea) c ∧
      (flag t.cpu.p .C).toNat = carryOut (peek s (effAddr m s).ea) c ∧ FlagsNZ r t

/-- The five encodings of a shift (30_encoding R140), `base` the opcode's top three bits. -/
def Sys2Proof.Claims.ShiftEncodings (base : Byte) (i : Tgt → Instr) : Prop :=
  Decodes (base + 0x0A) (fun _ _ => i .acc) ∧ Decodes (base + 0x06) (fun b1 _ => i (.mem (.zpg b1))) ∧
  Decodes (base + 0x16) (fun b1 _ => i (.mem (.zpx b1))) ∧
  Decodes (base + 0x0E) (fun b1 b2 => i (.mem (.abs (join b2 b1)))) ∧
  Decodes (base + 0x1E) (fun b1 b2 => i (.mem (.abx (join b2 b1))))

/-- 43 R231 to R234: ASL, LSR, ROL and ROR complete on A and on memory: the shifted byte, C the ejected bit, the old
carry entering in the rotates, N and Z from the result; one read and one write of memory, none for A. -/
def Obligations.ShiftsAndRotates : Prop :=
  (ShiftEncodings 0x00 .asl ∧ ShiftEncodings 0x40 .lsr ∧ ShiftEncodings 0x20 .rol ∧ ShiftEncodings 0x60 .ror) ∧
  ShiftGives .asl (fun m _ => 2 * m.toNat % 256) (fun m _ => m.toNat / 128) ∧
  ShiftGives .lsr (fun m _ => m.toNat / 2) (fun m _ => m.toNat % 2) ∧
  ShiftGives .rol (fun m c => (2 * m.toNat + c) % 256) (fun m _ => m.toNat / 128) ∧
  ShiftGives .ror (fun m c => 128 * c + m.toNat / 2) (fun m _ => m.toNat % 2)

/-- 43 R235, R236: INC and DEC complete: memory at the effective address receives the byte plus or minus one modulo 256,
N and Z from it; C and V unchanged. -/
def Obligations.IncAndDecMemory : Prop :=
  (Decodes 0xE6 (fun b1 _ => .inc (.zpg b1)) ∧ Decodes 0xF6 (fun b1 _ => .inc (.zpx b1)) ∧
    Decodes 0xEE (fun b1 b2 => .inc (.abs (join b2 b1))) ∧ Decodes 0xFE (fun b1 b2 => .inc (.abx (join b2 b1))) ∧
    Decodes 0x1A (fun b1 _ => .ill 0x1A b1) ∧
    Decodes 0xC6 (fun b1 _ => .dec (.zpg b1)) ∧ Decodes 0xD6 (fun b1 _ => .dec (.zpx b1)) ∧
    Decodes 0xCE (fun b1 b2 => .dec (.abs (join b2 b1))) ∧ Decodes 0xDE (fun b1 b2 => .dec (.abx (join b2 b1))) ∧
    Decodes 0x3A (fun b1 _ => .ill 0x3A b1)) ∧
  ∀ (m : Addr) (s : State),
    let v := (peek s (effAddr m s).ea).toNat
    (∃ t r, ModifyOp (.inc m) m r [.N, .Z] s t ∧ r.toNat = (v + 1) % 256 ∧ FlagsNZ r t) ∧
    (∃ t r, ModifyOp (.dec m) m r [.N, .Z] s t ∧ r.toNat = (v + 255) % 256 ∧ FlagsNZ r t)

/-- 43 R237 to R240: INX, INY, DEX and DEY complete: the register plus or minus one modulo 256, N and Z from it. -/
def Obligations.IncAndDecRegisters : Prop :=
  (Decodes 0xE8 (fun _ _ => .inx) ∧ Decodes 0xC8 (fun _ _ => .iny) ∧ Decodes 0xCA (fun _ _ => .dex) ∧
    Decodes 0x88 (fun _ _ => .dey)) ∧
  ∀ s : State,
    (∃ t, RegOp .inx [.X] [.N, .Z] 1 2 s t ∧ t.cpu.x.toNat = (s.cpu.x.toNat + 1) % 256 ∧ FlagsNZ t.cpu.x t) ∧
    (∃ t, RegOp .iny [.Y] [.N, .Z] 1 2 s t ∧ t.cpu.y.toNat = (s.cpu.y.toNat + 1) % 256 ∧ FlagsNZ t.cpu.y t) ∧
    (∃ t, RegOp .dex [.X] [.N, .Z] 1 2 s t ∧ t.cpu.x.toNat = (s.cpu.x.toNat + 255) % 256 ∧ FlagsNZ t.cpu.x t) ∧
    (∃ t, RegOp .dey [.Y] [.N, .Z] 1 2 s t ∧ t.cpu.y.toNat = (s.cpu.y.toNat + 255) % 256 ∧ FlagsNZ t.cpu.y t)

/-! ## Control flow -/

/-- 44 R250 to R258: each branch completes: taken to `pc0 + 2` plus the signed displacement on its condition, else to
`pc0 + 2`; 2 cycles, 3 taken, 4 when the target is in another page than the reference address (`pc0`, or `pc0 + 2` under
the other value of BRANCH_PAGE_REF); no flag, no register, no memory. -/
def Obligations.BranchesFollowTheirFlag : Prop :=
  (Decodes 0x10 (fun b1 _ => .bpl b1) ∧ Decodes 0x30 (fun b1 _ => .bmi b1) ∧ Decodes 0x50 (fun b1 _ => .bvc b1) ∧
    Decodes 0x70 (fun b1 _ => .bvs b1) ∧ Decodes 0x90 (fun b1 _ => .bcc b1) ∧ Decodes 0xB0 (fun b1 _ => .bcs b1) ∧
    Decodes 0xD0 (fun b1 _ => .bne b1) ∧ Decodes 0xF0 (fun b1 _ => .beq b1)) ∧
  ∀ (b1 : Byte) (s : State),
    let target : Word := BitVec.ofInt 16 (s.cpu.pc.toNat + 2 + b1.toInt)
    let origin : Word := match s.config.branchPageRef with
      | .pc0 => s.cpu.pc
      | .next => s.cpu.pc + 2
    let cycles := if target.toNat / 256 = origin.toNat / 256 then 3 else 4
    let follows (i : Instr) (taken : Bool) : Prop :=
      ∃ t, exec i s = .next t ∧ RegsKept [] s t ∧ t.cpu.p = s.cpu.p ∧ OutsideCpu t s ∧ MemoryKept s t ∧
        (taken = true → Ends s t target cycles) ∧ (taken = false → Ends s t (s.cpu.pc + 2) 2)
    follows (.bpl b1) (!flag s.cpu.p .N) ∧ follows (.bmi b1) (flag s.cpu.p .N) ∧
    follows (.bvc b1) (!flag s.cpu.p .V) ∧ follows (.bvs b1) (flag s.cpu.p .V) ∧
    follows (.bcc b1) (!flag s.cpu.p .C) ∧ follows (.bcs b1) (flag s.cpu.p .C) ∧
    follows (.bne b1) (!flag s.cpu.p .Z) ∧ follows (.beq b1) (flag s.cpu.p .Z)

/-- 44 R259: JMP completes: to the operand, or to the word at the pointer, whose high byte comes from the same page when
the pointer's low byte is $FF; the indirect form's two reads have their side effects, low byte first, and nothing else
changes. -/
def Obligations.JumpTakesItsTarget : Prop :=
  (Decodes 0x4C (fun b1 b2 => .jmp (.abs (join b2 b1))) ∧ Decodes 0x6C (fun b1 b2 => .jmp (.ind (join b2 b1)))) ∧
  ∀ (s : State) (w : Word),
    let hiAddr : Word := if w.toNat % 256 = 255 then w - 255 else w + 1
    (∃ t, exec (.jmp (.abs w)) s = .next t ∧ RegsKept [] s t ∧ t.cpu.p = s.cpu.p ∧ Ends s t w 3 ∧ OutsideCpu t s ∧
      MemoryKept s t) ∧
    (∃ t, exec (.jmp (.ind w)) s = .next t ∧ RegsKept [] s t ∧ t.cpu.p = s.cpu.p ∧
      Ends s t (join (peek (memRead s w).2 hiAddr) (peek s w)) 5 ∧
      OutsideCpu t (memRead (memRead s w).2 hiAddr).2 ∧
      (¬ SideEffect w → ¬ SideEffect hiAddr → MemoryKept s t))

/-- 44 R260: JSR completes: the address of its last byte is pushed, high byte first, S is two lower, PC is the operand. -/
def Obligations.JsrPushesTheReturnAddress : Prop :=
  Decodes 0x20 (fun b1 b2 => .jsr (join b2 b1)) ∧
  ∀ (s : State) (target : Word), ∃ t, exec (.jsr target) s = .next t ∧ Ends s t target 6 ∧
    t.cpu.sp = s.cpu.sp - 2 ∧ RegsKept [.S] s t ∧ t.cpu.p = s.cpu.p ∧ OnlyRam t s ∧
    ∀ a, peek t a =
      if SameCell (stackAddr s.cpu.sp) a then hiByte (s.cpu.pc + 2)
      else if SameCell (stackAddr (s.cpu.sp - 1)) a then loByte (s.cpu.pc + 2)
      else peek s a

/-- 44 R261: RTS completes: PC is the word above S plus one, S is two higher; P and memory unchanged. -/
def Obligations.RtsPullsTheReturnAddress : Prop :=
  Decodes 0x60 (fun _ _ => .rts) ∧
  ∀ s : State, ∃ t, exec .rts s = .next t ∧
    Ends s t (join (peek s (stackAddr (s.cpu.sp + 2))) (peek s (stackAddr (s.cpu.sp + 1))) + 1) 6 ∧
    t.cpu.sp = s.cpu.sp + 2 ∧ RegsKept [.S] s t ∧ t.cpu.p = s.cpu.p ∧ OutsideCpu t s ∧ MemoryKept s t

/-- 45 R279, 60_exceptions R302: BRK completes with the entry: `pc0 + 2` and P with B, U and I set are pushed, I is set,
PC comes from $FFFE, whatever I was. -/
def Obligations.BrkEntersTheHandler : Prop :=
  Decodes 0x00 (fun _ _ => .brk) ∧
  ∀ s : State, ∃ t, exec .brk s = .next t ∧ EntryRegs 0xFFFE s t ∧
    FramePushed (s.cpu.pc + 2) ((s.cpu.p &&& 0xCB) ||| 0x34) s t ∧ OnlyRam t s ∧
    t.cpu.remainingCycles = 7 ∧ t.cpu.totalCycleCount = s.cpu.totalCycleCount

/-- 45 R280: RTI completes: P from the stack without bits 4 and 5, then PC, low byte first, with no adjustment; S three
higher, memory unchanged. -/
def Obligations.RtiRestoresStatusAndPc : Prop :=
  Decodes 0x40 (fun _ _ => .rti) ∧
  ∀ s : State, ∃ t, exec .rti s = .next t ∧
    t.cpu.p = (peek s (stackAddr (s.cpu.sp + 1)) &&& 0xCF) ||| 0x20 ∧
    Ends s t (join (peek s (stackAddr (s.cpu.sp + 3))) (peek s (stackAddr (s.cpu.sp + 2)))) 6 ∧
    t.cpu.sp = s.cpu.sp + 3 ∧ RegsKept [.S] s t ∧ OutsideCpu t s ∧ MemoryKept s t

/-- 44 R260, R261, 45 R279, R280: RTS after JSR continues behind the JSR with S restored; RTI after BRK at rest continues
at `pc0 + 2` with S and every flag but I restored, and I set (R280's corner case). -/
def Obligations.ReturnsUndoTheirEntries : Prop :=
  ∀ (s : State) (target : Word),
    (∀ t u, exec (.jsr target) s = .next t → exec .rts t = .next u →
      u.cpu.pc = s.cpu.pc + 3 ∧ u.cpu.sp = s.cpu.sp ∧ u.cpu.p = s.cpu.p) ∧
    (Cpu.StatusAtRest s.cpu → ∀ t u, exec .brk s = .next t → exec .rti t = .next u →
      u.cpu.pc = s.cpu.pc + 2 ∧ u.cpu.sp = s.cpu.sp ∧ flag u.cpu.p .I = true ∧ FlagsKept [.I] s u)

/-- 45 R271 to R278: CLC, SEC, CLI, SEI, CLV, CLD and SED complete with their flag at 0 or 1 and nothing else changed;
NOP changes nothing but PC. -/
def Obligations.FlagInstructionsWriteOneFlag : Prop :=
  (Decodes 0x18 (fun _ _ => .clc) ∧ Decodes 0x38 (fun _ _ => .sec) ∧ Decodes 0x58 (fun _ _ => .cli) ∧
    Decodes 0x78 (fun _ _ => .sei) ∧ Decodes 0xB8 (fun _ _ => .clv) ∧ Decodes 0xD8 (fun _ _ => .cld) ∧
    Decodes 0xF8 (fun _ _ => .sed) ∧ Decodes 0xEA (fun _ _ => .nop)) ∧
  ∀ s : State,
    let writes (i : Instr) (f : Flag) (b : Bool) : Prop := ∃ t, RegOp i [] [f] 1 2 s t ∧ flag t.cpu.p f = b
    writes .clc .C false ∧ writes .sec .C true ∧ writes .cli .I false ∧ writes .sei .I true ∧
    writes .clv .V false ∧ writes .cld .D false ∧ writes .sed .D true ∧ ∃ t, RegOp .nop [] [] 1 2 s t

/-- 45 R281, 60_exceptions R303: under the default policy an illegal opcode completes as a 2-byte, 2-cycle NOP that
records the event (pc0, opcode) and changes nothing else; under `refuse` it is refused by name. -/
def Obligations.IllegalOpcodesAreRecordedNops : Prop :=
  ∀ (op b1 : Byte) (s : State),
    (s.config.illegalPolicy = .nop2 → ∃ t, exec (.ill op b1) s = .next t ∧ RegsKept [] s t ∧ t.cpu.p = s.cpu.p ∧
      Ends s t (after s 2) 2 ∧ MemoryKept s t ∧ t.illegalTrace = ⟨s.cpu.pc, op⟩ :: s.illegalTrace ∧
      t = { s with cpu := t.cpu, illegalTrace := t.illegalTrace }) ∧
    (s.config.illegalPolicy = .refuse → exec (.ill op b1) s = .refused (.illegalOpcode s.cpu.pc op))

/-! ## Words of the statements about the machine -/

namespace Sys2Proof.Claims

/-- `n` CPU cycles in a row (60_exceptions R306). -/
def cpuTicks : Nat → State → Result
  | 0, s => .next s
  | n + 1, s =>
    match cpuTick s with
    | .next t => cpuTicks n t
    | .fault e => .fault e
    | .refused e => .refused e

/-- The state after `n` reads of `a`. -/
def readTimes (a : Word) : Nat → State → State
  | 0, s => s
  | n + 1, s => readTimes a n (memRead s a).2

/-- `f` applied `n` times. -/
def times {α : Type} (f : α → α) : Nat → α → α
  | 0, x => x
  | n + 1, x => times f n (f x)

/-- The position of the next dot in the frame, 0 at the start of scanline -1 (62_ppu R403). -/
def dotPosition (p : Ppu) : Nat := (p.scanline + 1).toNat * 341 + p.cycle

/-- Whether the next tick skips the dot it stands at (62_ppu R406). -/
def SkipsDot (p : Ppu) : Prop := p.scanline = 0 ∧ p.cycle = 0 ∧ p.oddFrame = true ∧ p.rendering = true

/-- The scanlines -1 to 239, on which the PPU fetches. -/
def OnFetchLine (p : Ppu) : Prop := -1 ≤ p.scanline ∧ p.scanline ≤ 239

/-- The cell of the framebuffer that the dot of `p` composes is `n` (62_ppu R404, R423). -/
def ComposesCell (p : Ppu) (n : Nat) : Prop :=
  0 ≤ p.scanline ∧ p.scanline ≤ 239 ∧ 1 ≤ p.cycle ∧ p.cycle ≤ 256 ∧ n = p.scanline.toNat * 256 + (p.cycle - 1)

/-- The CHR offset of the PPU address `o` below 0x2000 before its reduction (64_mappers R511, R524, R531, R545). -/
def chrWindow (c : Cart) (o : Nat) : Nat :=
  match c.mapper with
  | .m0 | .m2 _ => o
  | .m1 r =>
    if c.chrBanks = 0 then o
    else if r.control.toNat / 16 = 0 then r.chrBank0.toNat / 2 * 0x2000 + o
    else (if o < 0x1000 then r.chrBank0.toNat else r.chrBank1.toNat) * 0x1000 + o % 0x1000
  | .m4 r =>
    let w := if r.chrInvert then (o / 0x0400 + 4) % 8 else o / 0x0400
    (match w with
      | 0 => r.reg[0].toNat / 2 * 2
      | 1 => r.reg[0].toNat / 2 * 2 + 1
      | 2 => r.reg[1].toNat / 2 * 2
      | 3 => r.reg[1].toNat / 2 * 2 + 1
      | 4 => r.reg[2].toNat
      | 5 => r.reg[3].toNat
      | 6 => r.reg[4].toNat
      | _ => r.reg[5].toNat) * 0x0400 + o % 0x0400

/-- The size of the CHR store (00_scope R8). -/
def chrBytes (c : Cart) : Nat := if c.chrBanks = 0 then 8192 else c.chrBanks * 8192

/-- The CHR cell of a PPU address, its offset reduced into the store (64_mappers R504). -/
def chrCell (c : Cart) (a : Word) : Nat := chrWindow c a.toNat % chrBytes c

/-- The physical nametable of a PPU address under a mirror mode (62_ppu R383). A hardware-defined mode is resolved by
the header before. -/
def physicalBank (m : MirrorMode) (a : Word) : Nat :=
  match m with
  | .horizontal | .hardwareDefined => a.toNat / 2048 % 2
  | .vertical => a.toNat / 1024 % 2
  | .oneScreenLo => 0
  | .oneScreenHi => 1

/-- The bit of the address that selects the physical nametable under a mirror mode (62_ppu R383); the one-screen modes
have one nametable. A hardware-defined mode is resolved by the header before. -/
def SameNametable (m : MirrorMode) (a b : Word) : Prop :=
  match m with
  | .horizontal | .hardwareDefined => a.getLsbD 11 = b.getLsbD 11
  | .vertical => a.getLsbD 10 = b.getLsbD 10
  | .oneScreenLo | .oneScreenHi => True

/-- Two addresses of the PPU bus reach one cell (62_ppu R380 to R389). -/
def SameVideoCell (c : Cart) (a b : Word) : Prop :=
  let x := a &&& 0x3FFF
  let y := b &&& 0x3FFF
  (x ≤ 0x1FFF ∧ y ≤ 0x1FFF ∧ c.chrBanks = 0 ∧ chrCell c x = chrCell c y) ∨
  (0x2000 ≤ x ∧ x ≤ 0x3EFF ∧ 0x2000 ≤ y ∧ y ≤ 0x3EFF ∧ x.toNat % 1024 = y.toNat % 1024 ∧
    SameNametable c.mirrorMode x y) ∨
  (0x3F00 ≤ x ∧ 0x3F00 ≤ y ∧
    (x.toNat % 32 = y.toNat % 32 ∨ (x.toNat % 16 = y.toNat % 16 ∧ x.toNat % 4 = 0)))

/-- The variables of the loop of 62_ppu R416. -/
structure EvalLoop where
  sprites : List SpriteUnit
  count : Nat
  matched : Nat
  zero : Bool

/-- One turn of the loop of R416, on OAM entry `n`. -/
def EvalLoop.turn (p : Ppu) (l : EvalLoop) (n : Nat) : EvalLoop :=
  let diff : Int := p.scanline - (p.oam.read (4 * n)).toNat
  let h : Int := if p.ctrl.getLsbD 5 then 16 else 8
  if 0 ≤ diff ∧ diff < h then
    if l.count < 8 then
      { sprites := l.sprites.set l.count ⟨p.oam.read (4 * n), p.oam.read (4 * n + 1), p.oam.read (4 * n + 2),
          p.oam.read (4 * n + 3), 0, 0⟩
        count := l.count + 1
        matched := l.matched + 1
        zero := if n = 0 then true else l.zero }
    else { l with matched := l.matched + 1 }
  else l

/-- The loop of R416 after its 64 turns. -/
def evalLoop (p : Ppu) : EvalLoop :=
  (List.range 64).foldl (EvalLoop.turn p) ⟨List.replicate 8 ⟨0xFF, 0xFF, 0xFF, 0xFF, 0, 0⟩, 0, 0, false⟩

/-- `coarseX` and `nametableX` of `v` as one counter of 64 tiles. -/
def tileColumn (v : BitVec 15) : Nat := v.toNat / 1024 % 2 * 32 + v.toNat % 32

/-- `coarseY` of `v`. -/
def tileRow (v : BitVec 15) : Nat := v.toNat / 32 % 32

/-- `coarseY` and `fineY` of `v` as one counter of pixel rows. -/
def pixelRow (v : BitVec 15) : Nat := tileRow v * 8 + v.toNat / 4096

/-- `nametableY` of `v`. -/
def lowerHalf (v : BitVec 15) : Nat := v.toNat / 2048 % 2

/-- The PRG offset of the CPU address `0x8000 + o` before its reduction (64_mappers R510, R523, R530, R544). -/
def prgWindow (c : Cart) (o : Nat) : Nat :=
  match c.mapper with
  | .m0 => o
  | .m1 r =>
    let bank := r.prgBank.toNat % 16
    match r.control.toNat / 4 % 4 with
    | 2 => if o < 0x4000 then o else bank * 0x4000 + o % 0x4000
    | 3 => (if o < 0x4000 then bank else c.prgBanks - 1) * 0x4000 + o % 0x4000
    | _ => bank / 2 * 0x8000 + o
  | .m2 r => (if o < 0x4000 then r.prgBankLo.toNat else r.prgBankHi) * 0x4000 + o % 0x4000
  | .m4 r =>
    let last := 2 * c.prgBanks - 1
    let bank6 := r.reg[6].toNat % 64
    let bank7 := r.reg[7].toNat % 64
    (match o / 0x2000 with
      | 0 => if r.prgMode then last - 1 else bank6
      | 1 => bank7
      | 2 => if r.prgMode then bank6 else last - 1
      | _ => last) * 0x2000 + o % 0x2000

/-- `t` differs from `s` in nothing but the sound: the APU, the audio accumulator and the sample flag. -/
def SameButSound (s t : State) : Prop :=
  t = { s with apu := t.apu, audioTime := t.audioTime, sampleReady := t.sampleReady }

/-- The table LENGTH of 63_apu R455. -/
def lengths : List Byte :=
  [10, 254, 20, 2, 40, 4, 80, 6, 160, 8, 60, 10, 14, 12, 26, 14] ++
  [12, 16, 24, 18, 48, 20, 96, 22, 192, 24, 72, 26, 16, 28, 32, 30]

/-- The table NOISE_PERIOD of 63_apu R457. -/
def noisePeriod : List Word := [0, 4, 8, 16, 32, 64, 96, 128, 160, 202, 254, 380, 508, 1016, 2034, 4068]

/-- The background pixel and its palette in the dot the PPU stands at (62_ppu R420). -/
def backgroundPixel (p : Ppu) : Nat × Nat :=
  let bit (w : Word) : Nat := w.toNat / 2 ^ (15 - p.fineX.toNat) % 2
  if p.mask.getLsbD 3 = true ∧ (p.mask.getLsbD 1 = true ∨ 9 ≤ p.cycle) then
    (2 * bit p.shiftPatternHi + bit p.shiftPatternLo, 2 * bit p.shiftAttribHi + bit p.shiftAttribLo)
  else (0, 0)

/-- The pixel of a sprite unit (62_ppu R421). -/
def unitPixel (u : SpriteUnit) : Nat := u.shiftHi.toNat / 128 * 2 + u.shiftLo.toNat / 128

/-- The opaque sprite pixel with its palette and whether it is in front: that of the first unit in use with `x` 0 and an
opaque pixel (62_ppu R421). -/
def spritePixel (p : Ppu) : Option (Nat × Nat × Bool) :=
  if p.mask.getLsbD 4 = true ∧ (p.mask.getLsbD 2 = true ∨ 9 ≤ p.cycle) then
    ((p.sprites.take p.spriteCount).find? fun u => decide (u.x = 0 ∧ unitPixel u ≠ 0)).map fun u =>
      (unitPixel u, u.attributes.toNat % 4 + 4, !u.attributes.getLsbD 5)
  else none

/-- `(pal << 2) + pixel` of the pixel that is shown (62_ppu R422, R423). -/
def shownIndex (p : Ppu) : Nat :=
  let bg := backgroundPixel p
  match spritePixel p with
  | none => if bg.1 = 0 then 0 else bg.2 * 4 + bg.1
  | some (px, pal, front) => if bg.1 = 0 ∨ front = true then pal * 4 + px else bg.2 * 4 + bg.1

/-- The sprite-zero condition in the dot the PPU stands at (62_ppu R422): an opaque background pixel, an opaque pixel of
the unit 0 of the cache, entry 0 of OAM in the cache, both layers shown, and in the left eight columns both shown there. -/
def ZeroHits (p : Ppu) : Prop :=
  (backgroundPixel p).1 ≠ 0 ∧
  (∃ u us, p.sprites.take p.spriteCount = u :: us ∧ u.x = 0 ∧ unitPixel u ≠ 0) ∧
  p.zeroHitPossible = true ∧ p.mask.getLsbD 3 = true ∧ p.mask.getLsbD 4 = true ∧
  ((p.mask.getLsbD 1 = true ∧ p.mask.getLsbD 2 = true) ∨ 9 ≤ p.cycle)

/-- The dot of the sprite evaluation (62_ppu R404, R416). -/
def EvaluatesSprites (p : Ppu) : Prop := 0 ≤ p.scanline ∧ p.scanline ≤ 239 ∧ p.cycle = 257

/-- The dot of the sprite fetch (62_ppu R404, R418). -/
def FetchesSprites (p : Ppu) : Prop := 0 ≤ p.scanline ∧ p.scanline ≤ 239 ∧ p.cycle = 340

/-- The dots of the sprite shift (62_ppu R404, R417). -/
def ShiftsSprites (p : Ppu) : Prop := OnFetchLine p ∧ p.mask.getLsbD 4 = true ∧ 2 ≤ p.cycle ∧ p.cycle ≤ 257

/-- A sprite unit after one shift (62_ppu R417). -/
def unitShifted (u : SpriteUnit) : SpriteUnit :=
  if u.x = 0 then
    { u with shiftLo := BitVec.ofNat 8 (2 * u.shiftLo.toNat), shiftHi := BitVec.ofNat 8 (2 * u.shiftHi.toNat) }
  else { u with x := u.x - 1 }

/-- The height of a sprite (62_ppu R416). -/
def spriteLines (p : Ppu) : Nat := if p.ctrl.getLsbD 5 then 16 else 8

/-- The address of the low plane of a sprite's row on the scanline (62_ppu R418). -/
def spriteRowAddress (p : Ppu) (u : SpriteUnit) : Nat :=
  let row := p.scanline.toNat - u.y.toNat
  let r := if u.attributes.getLsbD 7 then spriteLines p - 1 - row else row
  if p.ctrl.getLsbD 5 then u.id.toNat % 2 * 0x1000 + (u.id.toNat / 2 * 2 + r / 8) * 16 + r % 8
  else (if p.ctrl.getLsbD 3 then 0x1000 else 0) + u.id.toNat * 16 + r

/-- `w` is the unit `u` with the two bytes of its pattern row, each reversed when attribute bit 6 is set (62_ppu R418). -/
def UnitFetched (p : Ppu) (c : Cart) (u w : SpriteUnit) : Prop :=
  let order (k : Nat) : Nat := if u.attributes.getLsbD 6 then 7 - k else k
  w = { u with shiftLo := w.shiftLo, shiftHi := w.shiftHi } ∧
  ∀ k < 8, w.shiftLo.getLsbD k = (p.read c (BitVec.ofNat 16 (spriteRowAddress p u))).getLsbD (order k) ∧
    w.shiftHi.getLsbD k = (p.read c (BitVec.ofNat 16 (spriteRowAddress p u + 8))).getLsbD (order k)

/-- The background's latches and shifters across a dot of the scanlines -1 to 239 (62_ppu R407 to R411, R419). -/
structure BackgroundStepped (c : Cart) (p q : Ppu) : Prop where
  shifters :
    let window := (2 ≤ p.cycle ∧ p.cycle ≤ 257) ∨ (321 ≤ p.cycle ∧ p.cycle ≤ 337)
    let shifted (w : Word) : Nat := if p.mask.getLsbD 3 then 2 * w.toNat % 0x10000 else w.toNat
    let moves (x y : Word) (low : Nat) : Prop :=
      y.toNat =
        if window ∧ (p.cycle - 1) % 8 = 0 then shifted x / 256 * 256 + low
        else if window then shifted x
        else x.toNat
    moves p.shiftPatternLo q.shiftPatternLo p.nextTileLsb.toNat ∧
    moves p.shiftPatternHi q.shiftPatternHi p.nextTileMsb.toNat ∧
    moves p.shiftAttribLo q.shiftAttribLo (if p.nextTileAttrib.getLsbD 0 then 255 else 0) ∧
    moves p.shiftAttribHi q.shiftAttribHi (if p.nextTileAttrib.getLsbD 1 then 255 else 0)
  latches :
    let slot (k : Nat) : Prop :=
      ((2 ≤ p.cycle ∧ p.cycle ≤ 257) ∨ (321 ≤ p.cycle ∧ p.cycle ≤ 337)) ∧ (p.cycle - 1) % 8 = k
    let byteAt (n : Nat) : Byte := p.read c (BitVec.ofNat 16 n)
    let attributes := byteAt (0x23C0 + p.v.toNat / 1024 % 4 * 1024 + tileRow p.v / 4 * 8 + p.v.toNat % 32 / 4)
    let quadrant := tileRow p.v / 2 % 2 * 4 + p.v.toNat / 2 % 2 * 2
    let pattern := (if p.ctrl.getLsbD 4 then 0x1000 else 0) + p.nextTileId.toNat * 16 + p.v.toNat / 4096
    q.nextTileId =
      (if slot 0 ∨ p.cycle = 338 ∨ p.cycle = 340 then byteAt (0x2000 + p.v.toNat % 0x1000) else p.nextTileId) ∧
    q.nextTileAttrib.toNat =
      (if slot 2 then attributes.toNat / 2 ^ quadrant % 4 else p.nextTileAttrib.toNat) ∧
    q.nextTileLsb = (if slot 4 then byteAt pattern else p.nextTileLsb) ∧
    q.nextTileMsb = (if slot 6 then byteAt (pattern + 8) else p.nextTileMsb)

/-- The background's latches and shifters are unchanged. -/
def BackgroundKept (p q : Ppu) : Prop :=
  q = { q with
    shiftPatternLo := p.shiftPatternLo, shiftPatternHi := p.shiftPatternHi
    shiftAttribLo := p.shiftAttribLo, shiftAttribHi := p.shiftAttribHi
    nextTileId := p.nextTileId, nextTileAttrib := p.nextTileAttrib
    nextTileLsb := p.nextTileLsb, nextTileMsb := p.nextTileMsb }

/-- The four registers of a pulse channel after a write of `d` to its register `r` (63_apu R452 to R455). -/
def PulseWritten (p q : Pulse) (r : Nat) (d : Byte) : Prop :=
  match r with
  | 0 =>
    q = { p with
      halt := d.getLsbD 5
      envelope := { p.envelope with disable := d.getLsbD 4, volume := q.envelope.volume }
      sequencer := { p.sequencer with sequence := q.sequencer.sequence } } ∧
    q.envelope.volume.toNat = d.toNat % 16 ∧
    q.sequencer.sequence = [0x40, 0x60, 0x78, 0x9F].getD (d.toNat / 64) 0
  | 1 =>
    q = { p with sweeper := { p.sweeper with
      enabled := d.getLsbD 7, period := q.sweeper.period, down := d.getLsbD 3, shift := q.sweeper.shift, reload := true } } ∧
    q.sweeper.period.toNat = d.toNat / 16 % 8 ∧ q.sweeper.shift.toNat = d.toNat % 8
  | 2 =>
    q = { p with sequencer := { p.sequencer with reload := q.sequencer.reload } } ∧
    q.sequencer.reload.toNat = p.sequencer.reload.toNat / 256 * 256 + d.toNat
  | _ =>
    q = { p with
      lengthCounter := q.lengthCounter
      envelope := { p.envelope with start := true }
      sequencer := { p.sequencer with reload := q.sequencer.reload, timer := q.sequencer.reload } } ∧
    q.sequencer.reload.toNat = d.toNat % 8 * 256 + p.sequencer.reload.toNat % 256 ∧
    q.lengthCounter = lengths.getD (d.toNat / 8) 0

/-- A length counter after a half frame (63_apu R471), as a number. -/
def lengthAfter (enable halt : Bool) (n : Nat) : Nat := if enable then (if halt then n else n - 1) else 0

/-- An envelope clock from `e` to `f` (63_apu R470): the start, the reload of the divider with the decay's step, the count
of the divider; the output follows. -/
structure EnvelopeClocked (loop : Bool) (e f : Envelope) : Prop where
  kept : f.disable = e.disable ∧ f.volume = e.volume ∧ f.start = false
  starts : e.start = true → f.decay = 15 ∧ f.divider = e.volume
  reloads : e.start = false → e.divider = 0 → f.divider = e.volume ∧
    f.decay.toNat = if e.decay = 0 then (if loop then 15 else 0) else e.decay.toNat - 1
  counts : e.start = false → e.divider ≠ 0 → f.decay = e.decay ∧ f.divider.toNat = e.divider.toNat - 1
  output : f.output = if e.disable then e.volume else f.decay

/-- The muting condition (63_apu R468). -/
def Mutes (reload : Word) : Prop := reload.toNat < 8 ∨ 0x7FF < reload.toNat

/-- The period of the pulse channel `ch` after a half frame's sweep clock (63_apu R451, R467, R468). -/
def sweptPeriod (ch : Nat) (p : Pulse) : Word :=
  let period := p.sequencer.reload.toNat
  let change := period / 2 ^ p.sweeper.shift.toNat
  if p.sweeper.timer = 0 ∧ p.sweeper.enabled = true ∧ p.sweeper.shift ≠ 0 ∧ 8 ≤ period ∧ period ≤ 0x7FF ∧
      change < 0x7FF then
    BitVec.ofInt 16 (if p.sweeper.down then (period : Int) - (change + ch) else period + (change + ch))
  else p.sequencer.reload

/-- An APU step of the pulse channel `ch`, 0 or 1 (63_apu R451, R465 to R471): the sweep's tracking, at a quarter frame
the envelope, at a half frame the length counter and the sweep, then the sequencer and the output. -/
structure PulseStepped (ch : Nat) (quarter half : Prop) (p q : Pulse) : Prop where
  kept : q.enable = p.enable ∧ q.halt = p.halt
  clocked : quarter → EnvelopeClocked p.halt p.envelope q.envelope
  notClocked : ¬ quarter → q.envelope = p.envelope
  length : half → q.lengthCounter.toNat = lengthAfter p.enable p.halt p.lengthCounter.toNat
  notLength : ¬ half → q.lengthCounter = p.lengthCounter
  sweeper : q.sweeper = { p.sweeper with
    change := q.sweeper.change, muted := q.sweeper.muted, timer := q.sweeper.timer, reload := q.sweeper.reload }
  tracks : q.sweeper.change.toNat = p.sequencer.reload.toNat / 2 ^ p.sweeper.shift.toNat ∧
    (q.sweeper.muted = true ↔ Mutes q.sequencer.reload)
  sweeps : half → q.sequencer.reload = sweptPeriod ch p
  restarts : half → p.sweeper.timer = 0 ∨ p.sweeper.reload = true →
    q.sweeper.timer = p.sweeper.period ∧ q.sweeper.reload = false
  counts : half → p.sweeper.timer ≠ 0 → p.sweeper.reload = false →
    q.sweeper.timer.toNat = p.sweeper.timer.toNat - 1 ∧ q.sweeper.reload = false
  notSwept : ¬ half → q.sequencer.reload = p.sequencer.reload ∧ q.sweeper.timer = p.sweeper.timer ∧
    q.sweeper.reload = p.sweeper.reload
  silent : p.enable = false → q.sequencer = { p.sequencer with reload := q.sequencer.reload }
  runs : p.enable = true → p.sequencer.timer ≠ 0 →
    q.sequencer = { p.sequencer with reload := q.sequencer.reload, timer := p.sequencer.timer - 1 }
  rotates : p.enable = true → p.sequencer.timer = 0 → q.sequencer.timer = q.sequencer.reload ∧
    q.sequencer.sequence.toNat = p.sequencer.sequence.toNat % 2 * 128 + p.sequencer.sequence.toNat % 256 / 2 ∧
    q.sequencer.output = q.sequencer.sequence.getLsbD 0
  output : q.output = true ↔ q.sequencer.output = true ∧ q.lengthCounter ≠ 0 ∧ 8 ≤ q.sequencer.timer.toNat ∧
    q.sweeper.muted = false ∧ 2 < q.envelope.output.toNat

/-- An APU step of the noise channel (63_apu R451, R470, R471, R475, R476). -/
structure NoiseStepped (quarter half : Prop) (p q : Noise) : Prop where
  kept : q.enable = p.enable ∧ q.halt = p.halt
  clocked : quarter → EnvelopeClocked p.halt p.envelope q.envelope
  notClocked : ¬ quarter → q.envelope = p.envelope
  length : half → q.lengthCounter.toNat = lengthAfter p.enable p.halt p.lengthCounter.toNat
  notLength : ¬ half → q.lengthCounter = p.lengthCounter
  silent : p.enable = false → q.sequencer = p.sequencer
  runs : p.enable = true → p.sequencer.timer ≠ 0 →
    q.sequencer = { p.sequencer with timer := p.sequencer.timer - 1 }
  shifts : p.enable = true → p.sequencer.timer = 0 → q.sequencer.timer = p.sequencer.reload ∧
    q.sequencer.reload = p.sequencer.reload ∧ q.sequencer.sequence = lfsrNext p.sequencer.sequence ∧
    q.sequencer.output = q.sequencer.sequence.getLsbD 0
  output : q.output = if q.lengthCounter ≠ 0 ∧ q.sequencer.output = true then q.envelope.output else 0

/-- The mix of the three channel outputs (63_apu R480). -/
def mixOf (a : Apu) (g : Config) : Rat :=
  (if a.pulse1.output then g.pulse1Volume else 0) + (if a.pulse2.output then g.pulse2Volume else 0) +
    (a.noise.output.toNat : Rat) / 16 * g.noiseVolume

end Sys2Proof.Claims

/-! ## Exceptions, interrupts, the CPU cycle -/

/-- 60_exceptions R306 to R310: at a boundary a latched NMI is taken whatever I is, and clears the latch; without one,
an asserted IRQ line is taken if I is 0, and is acknowledged. Each entry pushes PC and P with B clear, U and I set, sets
I, loads its vector, and changes nothing else; it takes 8 or 7 cycles, of which this cycle is the first. (`freeCount` is
the model's own, log 8.) -/
def Obligations.InterruptsAreTakenAtBoundaries : Prop :=
  ∀ s : State, s.cpu.remainingCycles = 0 →
    let frame (t : State) : Prop := FramePushed s.cpu.pc ((s.cpu.p &&& 0xCB) ||| 0x24) s t
    let counts (t : State) (n : Nat) : Prop :=
      t.cpu.remainingCycles = n ∧ t.cpu.totalCycleCount = s.cpu.totalCycleCount + 1
    (s.ppu.nmiLatch = true → ∃ t, cpuTick s = .next t ∧ EntryRegs 0xFFFA s t ∧ frame t ∧ counts t 7 ∧
      t = { s with cpu := t.cpu, ram := t.ram, freeCount := s.freeCount + 1, ppu := { s.ppu with nmiLatch := false } }) ∧
    (s.ppu.nmiLatch = false → s.cart.irqState = true → flag s.cpu.p .I = false →
      ∃ t, cpuTick s = .next t ∧ EntryRegs 0xFFFE s t ∧ frame t ∧ counts t 6 ∧ t.cart.irqState = false ∧
        t = { s with cpu := t.cpu, ram := t.ram, freeCount := s.freeCount + 1, cart := s.cart.irqClear })

/-- 60_exceptions R306, 61_bus R341: an event at a boundary does all its work in its first CPU cycle, takes 2 to 8 of
them, and the others only count; a master tick is one dot of the PPU with its mapper hook and one tick of the APU, then
at every third tick a cycle of the CPU or, while a transfer runs, of the DMA engine, then the end of the tick; a tick
without such a cycle changes nothing but the devices, the sound and the clock. -/
def Obligations.EventsOccupyTheirCycles : Prop :=
  (∀ s t : State, s.cpu.remainingCycles = 0 → boundary s = .next t →
    2 ≤ t.cpu.remainingCycles ∧ t.cpu.remainingCycles ≤ 8 ∧
    ∀ k, 1 ≤ k → k ≤ t.cpu.remainingCycles →
      cpuTicks k s = .next { t with cpu := { t.cpu with
        remainingCycles := t.cpu.remainingCycles - k, totalCycleCount := s.cpu.totalCycleCount + k } }) ∧
  (∀ s : State, s.cart.valid = true → s.systemClock % 3 = 0 →
    let d := { s with ppu := (ppuTick s.ppu s.cart).1, cart := (ppuTick s.ppu s.cart).2, apu := s.apu.tick }
    devicesTick s = d ∧ (s.dma.transfer = false → step s = andThen (cpuTick d) endTick) ∧
      (s.dma.transfer = true → step s = .next (endTick (dmaStep d)))) ∧
  ∀ s t : State, step s = .next t → s.systemClock % 3 ≠ 0 →
    t = { s with ppu := (ppuTick s.ppu s.cart).1, cart := (ppuTick s.ppu s.cart).2
                 apu := { s.apu.tick with audioSample := t.apu.audioSample }, audioTime := t.audioTime
                 sampleReady := t.sampleReady, systemClock := s.systemClock + 1 }

/-- 60_exceptions R305, R315, 62_ppu R424, R426, 64_mappers R541: a dot runs the mapper's scanline tick at dot 260 of the
scanlines up to 239 with rendering on, and leaves the cartridge as it is at every other dot. Across any step the NMI latch
rises only at scanline 241, dot 1, with `vblankNmi` set, and the IRQ line only at such a dot 260, on M4 with its counter
enabled. -/
def Obligations.InterruptLinesRiseOnlyAtTheirDots : Prop :=
  (∀ (p : Ppu) (c : Cart),
    let hooks := p.cycle = 260 ∧ p.scanline ≤ 239 ∧ (p.mask.getLsbD 3 = true ∨ p.mask.getLsbD 4 = true)
    (hooks → (ppuTick p c).2 = c.scanlineTick) ∧ (¬ hooks → (ppuTick p c).2 = c)) ∧
  ∀ s t : State, step s = .next t →
    (t.ppu.nmiLatch = true →
      s.ppu.nmiLatch = true ∨ (s.ppu.scanline = 241 ∧ s.ppu.cycle = 1 ∧ s.ppu.ctrl.getLsbD 7 = true)) ∧
    (t.cart.irqState = true →
      s.cart.irqState = true ∨
        ∃ r, s.cart.mapper = .m4 r ∧ r.irqEnable = true ∧ s.ppu.cycle = 260 ∧ s.ppu.scanline ≤ 239 ∧
          (s.ppu.mask.getLsbD 3 = true ∨ s.ppu.mask.getLsbD 4 = true))

/-! ## Bus -/

/-- 61_bus R350 to R353: a write of $4014 starts the DMA and changes nothing else; from its first cycle the DMA takes
513 CPU cycles if `system_clock` is odd there and 514 if it is even, the CPU standing still; it then leaves the page in
OAM, in order and not offset by `oam_addr`, for every page without device registers. -/
def Obligations.OamDmaCopiesAPage : Prop :=
  (∀ (s : State) (v : Byte),
    memWrite s 0x4014 v = { s with dma := { s.dma with page := v, addr := 0, transfer := true } }) ∧
  ∀ s : State, s.cart.valid = true → s.dma.transfer = true → s.dma.dummy = true → s.dma.addr = 0 →
    s.systemClock % 3 = 0 → (s.dma.page < 0x20 ∨ 0x40 < s.dma.page) →
    let n := if s.systemClock % 2 = 1 then 513 else 514
    (∀ k, k ≤ 3 * (n - 1) →
      ∃ u, Host.Core.run Sys2Proof.core k s = .next u ∧ u.dma.transfer = true ∧ u.cpu = s.cpu) ∧
    ∃ t : State, Host.Core.run Sys2Proof.core (3 * n) s = .next t ∧ t.dma.transfer = false ∧ t.dma.dummy = true ∧
      t.cpu = s.cpu ∧ t.ram = s.ram ∧ t.ppu.oamAddr = s.ppu.oamAddr ∧
      ∀ i : Byte, t.ppu.oam.read i.toNat = peek s (join s.dma.page i)

/-- 61_bus R356, R357: a write of a controller port, whatever the value, latches that port's controller byte and nothing
else; the k-th read after it answers bit 7 - k of the byte, and 0 from the ninth on. -/
def Obligations.ControllerPortsShiftOut : Prop :=
  ∀ (s : State) (v : Byte),
    memWrite s 0x4016 v = { s with ctrlShift0 := s.controller0 } ∧
    memWrite s 0x4017 v = { s with ctrlShift1 := s.controller1 } ∧
    ∀ k : Nat,
      (peek (readTimes 0x4016 k (memWrite s 0x4016 v)) 0x4016).toNat =
        (if k < 8 then s.controller0.toNat / 2 ^ (7 - k) % 2 else 0) ∧
      (peek (readTimes 0x4017 k (memWrite s 0x4017 v)) 0x4017).toNat =
        (if k < 8 then s.controller1.toNat / 2 ^ (7 - k) % 2 else 0)

/-! ## Reset -/

/-- 70_reset R560, R561, R564, 64_mappers R525, R531, R543: what a reset leaves: every field of the CPU, the DMA engine,
the PPU and the APU, every store, the mapper's registers. The vector comes from the last bytes of PRG; CHR RAM and M1's RAM
are kept, as R560 says. A, X and Y take the open parameters. The model's inference (DEDUCED) is that the host inputs, the
parameters, PRG and the rest of the cartridge are kept (log 27) and so is M4's RAM (log 13); `illegalTrace` and
`freeCount`, the model's own, are kept and `sampleReady` is cleared by its choice (DESIGN CHOICE, log 27). -/
def Obligations.ResetInitialises : Prop :=
  ∀ s : State,
    let t := busReset s
    let silent : Pulse :=
      { enable := false, halt := false, envelope := ⟨false, false, 0, 0, 0, 0⟩, lengthCounter := 0
        sweeper := ⟨false, false, false, false, 0, 0, 0, 0⟩, sequencer := ⟨0, 0, 0, false⟩, output := false }
    (s.cart.valid = true →
      t.cpu.pc = join (s.cart.prg.read (s.cart.prgBanks * 16384 - 3)) (s.cart.prg.read (s.cart.prgBanks * 16384 - 4))) ∧
    t.cpu = { a := s.config.resetA, x := s.config.resetX, y := s.config.resetY, sp := 0xFD, pc := t.cpu.pc, p := 0x20
              opcode := 0, inputAlu := 0, temp := 0, absoluteAddr := 0, relativeAddr := 0, remainingCycles := 8
              totalCycleCount := 0 } ∧
    ((∀ a, t.ram.read a = 0) ∧ t.systemClock = 0 ∧ t.dma = ⟨0, 0, 0, true, false⟩ ∧ t.ctrlShift0 = 0 ∧
      t.ctrlShift1 = 0 ∧ t.audioTime = 0 ∧ t.sampleReady = false) ∧
    (t.ppu =
      { ctrl := 0, mask := 0, status := 0, v := 0, t := 0, fineX := 0, addressLatch := false, dataBuffer := 0
        nextTileId := 0, nextTileAttrib := 0, nextTileLsb := 0, nextTileMsb := 0, shiftPatternLo := 0
        shiftPatternHi := 0, shiftAttribLo := 0, shiftAttribHi := 0, oam := t.ppu.oam, oamAddr := 0
        sprites := List.replicate 8 ⟨0, 0, 0, 0, 0, 0⟩, spriteCount := 0, zeroHitPossible := false
        zeroDrawing := false, nametable := t.ppu.nametable, pattern := t.ppu.pattern, palette := t.ppu.palette
        scanline := 0, cycle := 0, oddFrame := false, frameComplete := false, nmiLatch := false
        framebuffer := t.ppu.framebuffer } ∧
      ∀ a, t.ppu.oam.read a = 0 ∧ t.ppu.nametable.read a = 0 ∧ t.ppu.pattern.read a = 0 ∧ t.ppu.palette.read a = 0 ∧
        t.ppu.framebuffer.read a = 0) ∧
    t.apu =
      { pulse1 := silent, pulse2 := silent
        noise := { enable := false, halt := false, envelope := ⟨false, false, 0, 0, 0, 0⟩, lengthCounter := 0
                   sequencer := ⟨0xDBDB, 0, 0, false⟩, output := 0 }
        frameCounter := 0, apuClock := 0, audioSample := 0 } ∧
    (t.config = s.config ∧ t.controller0 = s.controller0 ∧ t.controller1 = s.controller1 ∧
      t.illegalTrace = s.illegalTrace ∧ t.freeCount = s.freeCount ∧
      t.cart = { s.cart with mapper := t.cart.mapper } ∧ t.cart.irqState = false) ∧
    match s.cart.mapper with
    | .m0 => t.cart.mapper = .m0
    | .m1 r => t.cart.mapper = .m1 ⟨0, 0, 0x1C, 0, 0, 0, r.ram⟩
    | .m2 _ => t.cart.mapper = .m2 ⟨0, s.cart.prgBanks - 1⟩
    | .m4 r => t.cart.mapper = .m4 ⟨0, false, false, #v[0, 0, 0, 0, 0, 0, 0, 0], .horizontal, 0, 0, 0, false, false, r.ram⟩

/-- 70_reset R562, R582: after a reset of any state with a valid cartridge (the build of a machine, `newMachine`, is one),
24 master ticks only count the eight cycles down; the CPU then stands at its first boundary with nothing pending and no
DMA, and the 25th tick runs the instruction whose bytes lie at the reset vector's address, as every step runs one (the
free value of `temp` and the latch `opcode`: logs 8, 9). -/
def Obligations.FirstInstructionFollows24Ticks : Prop :=
  ∀ s : State, s.cart.valid = true →
    let r := busReset s
    ∃ t : State, Host.Core.run Sys2Proof.core 24 r = .next t ∧
      t.cpu = { r.cpu with remainingCycles := 0, totalCycleCount := 8 } ∧ t.systemClock = 24 ∧
      t.ram = r.ram ∧ t.cart = r.cart ∧ t.dma = r.dma ∧ t.dma.transfer = false ∧ t.ppu.nmiLatch = false ∧
      t.cart.irqState = false ∧ t.ppu.scanline = 0 ∧ t.ppu.cycle = 24 ∧
      ∀ (i : Instr) (rest : List Byte), (∀ k < i.size, ¬ SideEffect (r.cpu.pc + BitVec.ofNat 16 k)) →
        decode [peek r r.cpu.pc, peek r (r.cpu.pc + 1), peek r (r.cpu.pc + 2)] = .ok i rest →
        Host.Core.run Sys2Proof.core 25 r =
          andThen (exec i ((freshTemp (devicesTick t)).setOpcode (peek r r.cpu.pc))) (fun u => endTick (countCycle u))

/-! ## The whole machine -/

/-- 10_state R28, R41, R44, 62_ppu R403, 63_apu R450: the invariant holds right after reset. (`State.reset` carries the
parameters and the cartridge of the model's choice, logs 4, 5 and 14.) -/
def Obligations.ResetMeetsTheInvariant : Prop := Inv Sys2Proof.Machine.State.reset

/-- 10_state R28, R41, R44, R46, 62_ppu R403, 63_apu R450, log 7: every step keeps the invariant, and so does every host
action between steps; a rom swap (61_bus R366) and the build of a machine (R361), each with a cartridge whose stores and
serial counter are sound, meet it whatever the state was: B and U at rest, the PPU's and the APU's counters in range, the eight sprite units, the serial
counter of M1, `apu_clock = system_clock`, and the canonical form of every store. -/
def Obligations.StepsKeepTheInvariant : Prop :=
  (∀ s t : State, Inv s → Sys2Proof.Machine.step s = .next t → Inv t) ∧
  (∀ (h : HostAction) (s : State), Inv s → Inv (applyHost h s)) ∧
  ∀ c : Cart, Cart.Sound c → (∀ s : State, Inv (romSwap c s)) ∧ ∀ g : Config, Inv (newMachine c g)

/-- 00_scope R8, R9, 61_bus R358, 64_mappers R503: no step changes a parameter: the cartridge's PRG, geometry, header bits
and mapper number, the configuration, the host inputs; and CHR ROM. -/
def Obligations.StepsNeverChangeTheParameters : Prop :=
  ∀ s t : State, step s = .next t →
    t.config = s.config ∧ t.controller0 = s.controller0 ∧ t.controller1 = s.controller1 ∧
    t.cart.prg = s.cart.prg ∧ t.cart.prgBanks = s.cart.prgBanks ∧ t.cart.chrBanks = s.cart.chrBanks ∧
    t.cart.headerMirror = s.cart.headerMirror ∧ t.cart.trainerPresent = s.cart.trainerPresent ∧
    (s.cart.chrBanks ≠ 0 → t.cart.chr = s.cart.chr) ∧
    match s.cart.mapper with
    | .m0 => t.cart.mapper = .m0
    | .m1 _ => ∃ r, t.cart.mapper = .m1 r
    | .m2 q => ∃ r, t.cart.mapper = .m2 r ∧ r.prgBankHi = q.prgBankHi
    | .m4 _ => ∃ r, t.cart.mapper = .m4 r

/-- 20_memory R97, 60_exceptions R303, R304, 70_reset R580: with a valid cartridge every step completes, whatever the
state; the one stop is an illegal opcode under the policy `refuse`, and it names a byte of R142. -/
def Obligations.EveryStepCompletes : Prop :=
  ∀ s : State, s.cart.valid = true →
    (s.config.illegalPolicy = .nop2 → ∃ t, step s = .next t) ∧
    ((∃ t, step s = .next t) ∨
      (s.config.illegalPolicy = .refuse ∧ ∃ pc0 op, op ∈ illegalOpcodes ∧ step s = .refused (.illegalOpcode pc0 op)))

/-- 63_apu R481, 61_bus R360, 20_memory R89: the sound never reaches the rest of the machine: two runs that start alike
but for the APU and the audio accumulator stay alike but for them. -/
def Obligations.SoundNeverReachesTheMachine : Prop :=
  ∀ (n : Nat) (s t s' : State), SameButSound s t → Host.Core.run Sys2Proof.core n s = .next s' →
    ∃ t' : State, Host.Core.run Sys2Proof.core n t = .next t' ∧ SameButSound s' t'

/-! ## PPU -/

/-- 62_ppu R393, R396, R398, R400, R401: the read of each register, at every mirror: PPUSTATUS answers the three flags
and the open low bits and clears vblank and the latch (and the NMI latch at scanline 241, dot 2); OAMDATA answers its
byte; PPUDATA answers the buffer, or the palette at once, refills the buffer and moves `v`; the others read 0. -/
def Obligations.PpuRegisterReads : Prop :=
  ∀ (s : State) (a : Word), PpuRange a →
    let r := a.toNat % 8
    let x := memRead s a
    let p := x.2.ppu
    (r = 0 ∨ r = 1 ∨ r = 3 ∨ r = 5 ∨ r = 6 → x = (0, s)) ∧
    (r = 2 →
      (∀ k, x.1.getLsbD k = if k < 5 then s.config.statusLow5.getLsbD k else s.ppu.status.getLsbD k) ∧
      (∀ k, p.status.getLsbD k = if k = 7 then false else s.ppu.status.getLsbD k) ∧
      x.2 = { s with ppu := { s.ppu with
        status := p.status
        addressLatch := false
        nmiLatch := if s.ppu.scanline = 241 ∧ s.ppu.cycle = 2 then false else s.ppu.nmiLatch } }) ∧
    (r = 4 → x = (s.ppu.oam.read s.ppu.oamAddr.toNat, s)) ∧
    (r = 7 →
      let b := s.ppu.read s.cart (s.ppu.v.setWidth 16)
      x.1 = (if 0x3F00 ≤ s.ppu.v.toNat % 0x4000 then b else s.ppu.dataBuffer) ∧
      x.2 = { s with ppu := { s.ppu with dataBuffer := b, v := p.v } } ∧
      p.v.toNat = (s.ppu.v.toNat + (if s.ppu.ctrl.getLsbD 2 then 32 else 1)) % 0x8000)

/-- 62_ppu R393, R394, R395, R397, R399, R401, R402: the write of each register, at every mirror: the bits of `t`, `v`
and `fineX` that PPUCTRL, PPUSCROLL and PPUADDR set, the latch they share, OAM and `oam_addr`, and PPUDATA's one write of
the PPU bus at `v`; PPUSTATUS ignores a write, and no write touches the NMI latch. -/
def Obligations.PpuRegisterWrites : Prop :=
  ∀ (s : State) (a : Word) (d : Byte), PpuRange a →
    let r := a.toNat % 8
    let u := memWrite s a d
    let p := u.ppu
    (r = 0 → u = { s with ppu := { s.ppu with ctrl := d, t := p.t } } ∧
      ∀ k, p.t.getLsbD k = if k = 10 then d.getLsbD 0 else if k = 11 then d.getLsbD 1 else s.ppu.t.getLsbD k) ∧
    (r = 1 → u = { s with ppu := { s.ppu with mask := d } }) ∧
    (r = 2 → u = s) ∧
    (r = 3 → u = { s with ppu := { s.ppu with oamAddr := d } }) ∧
    (r = 4 → u = { s with ppu := { s.ppu with oam := p.oam, oamAddr := s.ppu.oamAddr + 1 } } ∧
      ∀ n, p.oam.read n = if n = s.ppu.oamAddr.toNat then d else s.ppu.oam.read n) ∧
    (r = 5 → s.ppu.addressLatch = false →
      u = { s with ppu := { s.ppu with fineX := p.fineX, t := p.t, addressLatch := true } } ∧
      p.fineX.toNat = d.toNat % 8 ∧
      ∀ k, p.t.getLsbD k = if k < 5 then d.getLsbD (k + 3) else s.ppu.t.getLsbD k) ∧
    (r = 5 → s.ppu.addressLatch = true →
      u = { s with ppu := { s.ppu with t := p.t, addressLatch := false } } ∧
      ∀ k, p.t.getLsbD k =
        if 12 ≤ k ∧ k < 15 then d.getLsbD (k - 12) else if 5 ≤ k ∧ k < 10 then d.getLsbD (k - 2) else s.ppu.t.getLsbD k) ∧
    (r = 6 → s.ppu.addressLatch = false →
      u = { s with ppu := { s.ppu with t := p.t, addressLatch := true } } ∧
      p.t.toNat = d.toNat % 64 * 256 + s.ppu.t.toNat % 256) ∧
    (r = 6 → s.ppu.addressLatch = true →
      u = { s with ppu := { s.ppu with t := p.t, v := p.t, addressLatch := false } } ∧
      p.t.toNat = s.ppu.t.toNat / 256 * 256 + d.toNat) ∧
    (r = 7 →
      let w := s.ppu.write s.cart (s.ppu.v.setWidth 16) d
      u = { s with ppu := { w.1 with v := p.v }, cart := w.2 } ∧
      p.v.toNat = (s.ppu.v.toNat + (if s.ppu.ctrl.getLsbD 2 then 32 else 1)) % 0x8000)

/-- 62_ppu R380, R382, R383, R386, R387, R389, R391, 64_mappers R526, R534: a write of the PPU bus is read back at every
address of its cell (mirrored nametables, the palette's images and aliases, CHR RAM through its windows), through the
palette's mask, and changes no other address; without CHR RAM a pattern write is lost. A nametable read is that of its
physical bank. M1's control and M4's mirror register give the mirroring, the header where the mapper does not. -/
def Obligations.PpuBusReadsBackItsWrites : Prop :=
  (∀ (p : Ppu) (c : Cart) (a b : Word) (v : Byte),
    let w := p.write c a v
    (SameVideoCell c a b → w.1.read w.2 b =
      if 0x3F00 ≤ (b &&& 0x3FFF) then v &&& (if p.mask.getLsbD 0 then 0x30 else 0x3F) else v) ∧
    (¬ SameVideoCell c a b → w.1.read w.2 b = p.read c b)) ∧
  (∀ (p : Ppu) (c : Cart) (a : Word), 0x2000 ≤ a → a ≤ 0x3EFF →
    p.read c a = p.nametable.read (physicalBank c.mirrorMode a * 1024 + a.toNat % 1024)) ∧
  ∀ c : Cart,
    match c.mapper with
    | .m0 | .m2 _ => c.mirrorMode = if c.headerMirror then .vertical else .horizontal
    | .m1 r => c.mirrorMode =
        match r.control.toNat % 4 with
        | 0 => .oneScreenLo
        | 1 => .oneScreenHi
        | 2 => .vertical
        | _ => .horizontal
    | .m4 r => r.mirror ≠ .hardwareDefined → c.mirrorMode = r.mirror

/-- 62_ppu R403, R406: a dot moves the counters to the next of the 262 × 341 positions, or over one position where the odd
frame skips a dot; the end of scanline 260 sets `frame_complete` and flips `odd_frame`. -/
def Obligations.DotCountersRunTheFrame : Prop :=
  ∀ (p : Ppu) (c : Cart), Ppu.CountersInRange p →
    let q := (ppuTick p c).1
    let ends : Prop := p.scanline = 260 ∧ p.cycle = 340
    Ppu.CountersInRange q ∧
    (¬ SkipsDot p → dotPosition q = (dotPosition p + 1) % (262 * 341)) ∧
    (SkipsDot p → dotPosition q = dotPosition p + 2) ∧
    (ends → q.frameComplete = true ∧ q.oddFrame = !p.oddFrame) ∧
    (¬ ends → q.frameComplete = p.frameComplete ∧ q.oddFrame = p.oddFrame)

/-- 62_ppu R404, R416, R422, R424, R425: the status flags across a dot. Vblank is set at scanline 241, dot 1, which latches
the NMI if `vblankNmi` is set; dot 1 of scanline -1 clears the three flags and the sprites; elsewhere vblank and the latch
stay. The overflow flag is set exactly at dot 257 of scanlines 0 to 239 when the loop of R416 matches more than eight
entries, the hit flag exactly in a composed dot that meets R422's condition after the dot's shifts and fetches (the dot
after a skipped one is composed in its place); both stay set until the clear. -/
def Obligations.StatusFlagsFollowTheDots : Prop :=
  ∀ (p : Ppu) (c : Cart),
    let q := (ppuTick p c).1
    let rises := p.scanline = 241 ∧ p.cycle = 1
    let clears := p.scanline = -1 ∧ p.cycle = 1
    let composed := (0 ≤ p.scanline ∧ p.scanline ≤ 239 ∧ 1 ≤ p.cycle ∧ p.cycle ≤ 256) ∨ SkipsDot p
    (rises → (∀ k, q.status.getLsbD k = (p.status.getLsbD k || decide (k = 7))) ∧
      q.nmiLatch = (p.nmiLatch || p.ctrl.getLsbD 7)) ∧
    (clears → (∀ k, q.status.getLsbD k = (p.status.getLsbD k && decide (k < 5))) ∧ q.nmiLatch = p.nmiLatch ∧
      q.spriteCount = 0 ∧ ∀ u ∈ q.sprites, u.shiftLo = 0 ∧ u.shiftHi = 0) ∧
    (¬ rises → ¬ clears →
      q.nmiLatch = p.nmiLatch ∧
      (∀ k, k ≠ 5 → k ≠ 6 → q.status.getLsbD k = p.status.getLsbD k) ∧
      (q.status.getLsbD 5 = true ↔ p.status.getLsbD 5 = true ∨ (EvaluatesSprites p ∧ 8 < (evalLoop p).matched)) ∧
      (q.status.getLsbD 6 = true ↔ p.status.getLsbD 6 = true ∨ (composed ∧ ZeroHits (p.linePhase c))))

/-- 62_ppu R404, R405, R407 to R415, R419: the address register across a dot: the column counter steps through 64 tiles at every
eighth dot of a fetch window, the row counter through 480 pixel rows at dot 256 (rows 240 and later of a nametable wrap
without leaving it), dot 257 copies the horizontal fields of `t`, dots 280 to 304 of scanline -1 the vertical ones; all
four only with rendering on, and no other dot moves `v`. The tile latches are read through `v` and the shifters are loaded
and shifted in their windows, whether rendering is on or not, and stay as they are on the other scanlines. -/
def Obligations.VideoAddressFollowsTheDots : Prop :=
  ∀ (p : Ppu) (c : Cart),
    let v' := (ppuTick p c).1.v
    let window := (2 ≤ p.cycle ∧ p.cycle ≤ 257) ∨ (321 ≤ p.cycle ∧ p.cycle ≤ 337)
    let column := window ∧ (p.cycle - 1) % 8 = 7
    let vertical := p.scanline = -1 ∧ 280 ≤ p.cycle ∧ p.cycle ≤ 304
    let stepsRow : Prop :=
      (tileRow p.v < 30 →
        tileRow v' < 30 ∧ lowerHalf v' * 240 + pixelRow v' = (lowerHalf p.v * 240 + pixelRow p.v + 1) % 480) ∧
      (30 ≤ tileRow p.v → lowerHalf v' = lowerHalf p.v ∧ pixelRow v' = (pixelRow p.v + 1) % 256)
    let keepsRow : Prop := lowerHalf v' = lowerHalf p.v ∧ pixelRow v' = pixelRow p.v
    (OnFetchLine p → BackgroundStepped c p (ppuTick p c).1) ∧ (¬ OnFetchLine p → BackgroundKept p (ppuTick p c).1) ∧
    ((¬ OnFetchLine p ∨ p.rendering = false ∨ (¬ column ∧ p.cycle ≠ 257 ∧ ¬ vertical)) → v' = p.v) ∧
    (OnFetchLine p → p.rendering = true →
      (column → tileColumn v' = (tileColumn p.v + 1) % 64 ∧ (p.cycle = 256 → stepsRow) ∧ (p.cycle ≠ 256 → keepsRow)) ∧
      (p.cycle = 257 → tileColumn v' = tileColumn p.t ∧ keepsRow) ∧
      (vertical → tileColumn v' = tileColumn p.v ∧ lowerHalf v' = lowerHalf p.t ∧ pixelRow v' = pixelRow p.t))

/-- 62_ppu R416, R417, R418: sprite evaluation is the rule's loop over the 64 entries of OAM: the sprite cache with its
order and its fill, the count, the zero-hit candidate and the overflow flag. It runs at dot 257 of scanlines 0 to 239; the
units in use shift in dots 2 to 257 when sprites are shown, and load their pattern rows at dot 340 (a row 0 to h-1, which
is that of every evaluated unit); no other dot changes the cache but the clear at scanline -1, dot 1. -/
def Obligations.SpriteEvaluationIsTheSpecsLoop : Prop :=
  (∀ p : Ppu, p.spriteEvaluate =
    { p with
      sprites := (evalLoop p).sprites
      spriteCount := (evalLoop p).count
      zeroHitPossible := (evalLoop p).zero
      status := if 8 < (evalLoop p).matched then p.status ||| 0x20 else p.status }) ∧
  ∀ (p : Ppu) (c : Cart),
    let q := (ppuTick p c).1
    (EvaluatesSprites p → q.sprites = (evalLoop p).sprites ∧ q.spriteCount = (evalLoop p).count ∧
      q.zeroHitPossible = (evalLoop p).zero) ∧
    (¬ EvaluatesSprites p → ¬ (p.scanline = -1 ∧ p.cycle = 1) →
      q.spriteCount = p.spriteCount ∧ q.zeroHitPossible = p.zeroHitPossible ∧ q.sprites.length = p.sprites.length ∧
      ∀ i u, p.sprites[i]? = some u →
        (ShiftsSprites p → i < p.spriteCount → q.sprites[i]? = some (unitShifted u)) ∧
        (FetchesSprites p → i < p.spriteCount → u.y.toNat ≤ p.scanline → p.scanline < u.y.toNat + spriteLines p →
          ∃ w, q.sprites[i]? = some w ∧ UnitFetched p c u w) ∧
        (p.spriteCount ≤ i ∨ (¬ ShiftsSprites p ∧ ¬ FetchesSprites p) → q.sprites[i]? = some u))

/-- 62_ppu R404, R420 to R423: across any step the framebuffer changes in the one cell of a composed dot, which receives
the palette entry of the pixel that is shown, a 6-bit colour index, and nothing else writes it. The pixel is that of the
PPU after the dot's shifts and fetches (the dot after a skipped one is composed in its place). -/
def Obligations.FramebufferIsWrittenByComposedDotsOnly : Prop :=
  ∀ s t : State, step s = .next t → ∀ n,
    let composed : Prop := ComposesCell s.ppu n ∨ (SkipsDot s.ppu ∧ n = 0)
    let q := s.ppu.linePhase s.cart
    (composed → (t.ppu.framebuffer.read n).toNat < 64 ∧ q.cycle = n % 256 + 1 ∧
      t.ppu.framebuffer.read n = q.read s.cart (0x3F00 + BitVec.ofNat 16 (shownIndex q))) ∧
    (¬ composed → t.ppu.framebuffer.read n = s.ppu.framebuffer.read n)

/-! ## Cartridge -/

/-- 64_mappers R504, R510, R511, R523, R524, R530, R531, R544, R545: a read at $8000 and above is the PRG byte in the
window's bank, its offset reduced into the store, on every mapper, and has no side effect; a write there selects M2's low
bank and is ignored on M0. A PPU read below $2000 is the CHR byte in the window's bank, reduced likewise, and a PPU write
there reaches that byte of CHR RAM and no CHR ROM. -/
def Obligations.PrgWindowsSelectTheirBanks : Prop :=
  ∀ (s : State) (a : Word) (d : Byte), s.cart.valid = true → 0x8000 ≤ a →
    let off := prgWindow s.cart (a.toNat - 0x8000) % (s.cart.prgBanks * 16384)
    memRead s a = (s.cart.prg.read off, s) ∧ off < s.cart.prgBanks * 16384 ∧
    (∀ b : Word, b ≤ 0x1FFF →
      s.ppu.read s.cart b = s.cart.chr.read (chrCell s.cart b) ∧ chrCell s.cart b < chrBytes s.cart ∧
      let c := (s.ppu.write s.cart b d).2
      (s.cart.chrBanks = 0 → c = { s.cart with chr := c.chr } ∧
        ∀ k, c.chr.read k = if k = chrCell s.cart b then d else s.cart.chr.read k) ∧
      (s.cart.chrBanks ≠ 0 → c = s.cart)) ∧
    (s.cart.mapper = .m0 → memWrite s a d = s) ∧
    ∀ r, s.cart.mapper = .m2 r →
      ∃ q, memWrite s a d = { s with cart := { s.cart with mapper := .m2 q } } ∧ q.prgBankLo.toNat = d.toNat % 16 ∧
        q.prgBankHi = r.prgBankHi

/-- 64_mappers R522: M1's serial port. A write with bit 7 set clears the load register and sets the PRG mode bits; another
write shifts bit 0 in at the top; five writes after a clear load the register that the fifth address names, the first
bit lowest, and nothing else of the machine changes. -/
def Obligations.Mmc1LoadsAfterFiveWrites : Prop :=
  ∀ (s : State) (r : Mmc1), s.cart.mapper = .m1 r →
    let with1 (q : Mmc1) : State := { s with cart := { s.cart with mapper := .m1 q } }
    (∀ (a : Word) (d : Byte), 0x8000 ≤ a → d.getLsbD 7 = true →
      memWrite s a d = with1 { r with load := 0, loadCount := 0, control := r.control ||| 0x0C }) ∧
    (∀ (a : Word) (d : Byte), 0x8000 ≤ a → d.getLsbD 7 = false → r.loadCount ≠ 4 →
      ∃ x : BitVec 5, memWrite s a d = with1 { r with load := x, loadCount := r.loadCount + 1 } ∧
        x.toNat = r.load.toNat / 2 + d.toNat % 2 * 16) ∧
    (r.loadCount = 0 → ∀ (a0 a1 a2 a3 a4 : Word) (d0 d1 d2 d3 d4 : Byte),
      (∀ a ∈ [a0, a1, a2, a3, a4], 0x8000 ≤ a) → (∀ d ∈ [d0, d1, d2, d3, d4], d.getLsbD 7 = false) →
      ∃ x : BitVec 5,
        x.toNat = d0.toNat % 2 + d1.toNat % 2 * 2 + d2.toNat % 2 * 4 + d3.toNat % 2 * 8 + d4.toNat % 2 * 16 ∧
        memWrite (memWrite (memWrite (memWrite (memWrite s a0 d0) a1 d1) a2 d2) a3 d3) a4 d4 =
          with1 (match a4.toNat / 0x2000 % 4 with
            | 0 => { r with load := 0, loadCount := 0, control := x }
            | 1 => { r with load := 0, loadCount := 0, chrBank0 := x }
            | 2 => { r with load := 0, loadCount := 0, chrBank1 := x }
            | _ => { r with load := 0, loadCount := 0, prgBank := x }))

/-- 64_mappers R533, R534, R536 to R539: M4's four register pairs, chosen by address bits 14, 13 and 0: what each write
sets, and that nothing else of the mapper or of the machine changes. -/
def Obligations.Mmc3RegistersByPair : Prop :=
  ∀ (s : State) (r : Mmc3) (a : Word) (d : Byte), s.cart.mapper = .m4 r → 0x8000 ≤ a →
    let pair := a.toNat / 0x2000 % 4
    let odd := a.toNat % 2 = 1
    ∃ q : Mmc3, memWrite s a d = { s with cart := { s.cart with mapper := .m4 q } } ∧
      q.target.toNat = (if pair = 0 ∧ ¬ odd then d.toNat % 8 else r.target.toNat) ∧
      q.prgMode = (if pair = 0 ∧ ¬ odd then d.getLsbD 6 else r.prgMode) ∧
      q.chrInvert = (if pair = 0 ∧ ¬ odd then d.getLsbD 7 else r.chrInvert) ∧
      (∀ (i : Nat) (h : i < 8), q.reg[i] = if pair = 0 ∧ odd ∧ i = r.target.toNat then d else r.reg[i]) ∧
      q.mirror = (if pair = 1 ∧ ¬ odd then (if d.getLsbD 0 then .horizontal else .vertical) else r.mirror) ∧
      (pair = 1 ∧ ¬ odd → (memWrite s a d).cart.mirrorMode = q.mirror) ∧
      q.prgRamProtect = (if pair = 1 ∧ odd then d else r.prgRamProtect) ∧
      q.irqLatch = (if pair = 2 ∧ ¬ odd then d else r.irqLatch) ∧
      q.irqCounter = (if pair = 2 ∧ odd then 0 else r.irqCounter) ∧
      q.irqEnable = (if pair = 3 then decide odd else r.irqEnable) ∧
      q.irqActive = (if pair = 3 ∧ ¬ odd then false else r.irqActive) ∧ q.ram = r.ram

/-- 64_mappers R540, R541, R542: with the counter at 0 and the latch at N, the first scanline tick loads N and each later
one counts down; the line rises at tick N + 1 if enabled and at none before, and stays up until it is cleared, which
changes neither the enable nor the counter. -/
def Obligations.Mmc3CountsScanlines : Prop :=
  ∀ r : Mmc3, r.irqCounter = 0 → r.irqActive = false →
    (∀ k, k ≤ r.irqLatch.toNat →
      (times Mmc3.scanlineTick (k + 1) r).irqCounter.toNat = r.irqLatch.toNat - k ∧
      (k < r.irqLatch.toNat → (times Mmc3.scanlineTick (k + 1) r).irqActive = false)) ∧
    (times Mmc3.scanlineTick (r.irqLatch.toNat + 1) r).irqActive = r.irqEnable ∧
    (∀ c : Cart, c.mapper = .m4 r →
      c.scanlineTick = { c with mapper := .m4 r.scanlineTick } ∧ c.irqState = false) ∧
    ∀ (c : Cart) (q : Mmc3), c.mapper = .m4 q →
      q.scanlineTick.irqActive = (q.irqActive || (decide (q.scanlineTick.irqCounter = 0) && q.irqEnable)) ∧
      c.irqState = q.irqActive ∧ c.irqClear = { c with mapper := .m4 { q with irqActive := false } }

/-! ## APU -/

/-- 63_apu R452 to R460: what a write of each APU register sets, the tables LENGTH and NOISE_PERIOD written out; the
addresses without a register change nothing, and no write changes anything outside the APU. -/
def Obligations.ApuRegistersByAddress : Prop :=
  ∀ (s : State) (a : Word) (d : Byte), (0x4000 ≤ a ∧ a ≤ 0x4013) ∨ a = 0x4015 →
    let u := memWrite s a d
    let n := a.toNat - 0x4000
    (n < 4 → PulseWritten s.apu.pulse1 u.apu.pulse1 n d ∧
      u = { s with apu := { s.apu with pulse1 := u.apu.pulse1 } }) ∧
    (4 ≤ n ∧ n < 8 → PulseWritten s.apu.pulse2 u.apu.pulse2 (n - 4) d ∧
      u = { s with apu := { s.apu with pulse2 := u.apu.pulse2 } }) ∧
    (n ∈ [0x08, 0x09, 0x0A, 0x0B, 0x0D, 0x10, 0x11, 0x12, 0x13] → u = s) ∧
    (n = 0x0C → ∃ v : BitVec 4, v.toNat = d.toNat % 16 ∧
      u = { s with apu := { s.apu with noise := { s.apu.noise with
        halt := d.getLsbD 5, envelope := { s.apu.noise.envelope with disable := d.getLsbD 4, volume := v } } } }) ∧
    (n = 0x0E → u = { s with apu := { s.apu with noise := { s.apu.noise with
      sequencer := { s.apu.noise.sequencer with reload := noisePeriod.getD (d.toNat % 16) 0 } } } }) ∧
    (n = 0x0F → u = { s with apu := { s.apu with noise := { s.apu.noise with
      lengthCounter := lengths.getD (d.toNat / 8) 0, envelope := { s.apu.noise.envelope with start := true } } } }) ∧
    (n = 0x15 → u = { s with apu := { s.apu with
      pulse1 := { s.apu.pulse1 with enable := d.getLsbD 0 }
      pulse2 := { s.apu.pulse2 with enable := d.getLsbD 1 }
      noise := { s.apu.noise with enable := d.getLsbD 2 } } })

/-- 63_apu R450, R451, R465 to R471, R475, R476, R480, 61_bus R360: an APU tick every sixth master tick; the frame
counter's cycle of 14916; what an APU step does to the two pulse channels and to the noise channel: the envelopes clocked
at the four quarter-frame points and at no other, the length counters and the sweeps at the two half-frame points, the
sequencers and the outputs at each step; an envelope's decay falls by one in volume + 1 clocks; the noise register shifts
by one with its feedback in bit 14, from 16 bits ($DBDB gives $6DED) into 15. Across any step of the machine the outputs
are the tick's, kept between APU steps and mixed as kept by the model's choice (DESIGN CHOICE, log 15); the audio
accumulator gains one clock's time and emits the mix when it reaches a sample's, in exact rationals, the answer kept in
`sampleReady` (DESIGN CHOICE, log 14), at SPEED and SAMPLE_RATE other than 0, where R360 states the quotients (log 14). -/
def Obligations.ApuFrameSequencerClocksItsUnits : Prop :=
  (∀ a : Apu, a.apuClock % 6 ≠ 0 → a.tick = { a with apuClock := a.apuClock + 1 }) ∧
  (∀ a : Apu, a.apuClock % 6 = 0 → a.frameCounter ≤ 14915 →
    let q := a.tick
    let n := a.frameCounter + 1
    let quarter := n = 3729 ∨ n = 7457 ∨ n = 11186 ∨ n = 14916
    let half := n = 7457 ∨ n = 14916
    q.apuClock = a.apuClock + 1 ∧ q.frameCounter = n % 14916 ∧ q.audioSample = a.audioSample ∧
    PulseStepped 0 quarter half a.pulse1 q.pulse1 ∧ PulseStepped 1 quarter half a.pulse2 q.pulse2 ∧
    NoiseStepped quarter half a.noise q.noise) ∧
  (∀ (e : Envelope) (loop : Bool), e.start = false → e.divider = e.volume → 0 < e.decay →
    let e' := times (fun x => x.clock loop) (e.volume.toNat + 1) e
    e'.decay.toNat = e.decay.toNat - 1 ∧ e'.divider = e.volume ∧ e'.start = false ∧
    e'.output = if e.disable then e.volume else e'.decay) ∧
  (∀ x : BitVec 32,
    (lfsrNext x).toNat = x.toNat / 2 + (if x.getLsbD 15 then 0 else (x.toNat + x.toNat / 2) % 2 * 2 ^ 14) ∧
    (x.toNat < 2 ^ 16 → (lfsrNext x).toNat < 2 ^ 15) ∧ (x = 0xDBDB → lfsrNext x = 0x6DED)) ∧
  ∀ s t : State, step s = .next t →
    t.apu.pulse1.output = s.apu.tick.pulse1.output ∧ t.apu.pulse2.output = s.apu.tick.pulse2.output ∧
    t.apu.noise.output = s.apu.tick.noise.output ∧
    (s.config.speed ≠ 0 → s.config.sampleRate ≠ 0 →
      let time := s.audioTime + 1 / (5370000 * s.config.speed)
      let sample := 1 / s.config.sampleRate
      (t.sampleReady = true ↔ sample ≤ time) ∧
      t.audioTime = (if sample ≤ time then time - sample else time) ∧
      t.apu.audioSample = if sample ≤ time then mixOf t.apu s.config else s.apu.audioSample)
end

