-- ==== Sys2Proof/Laws/Flags.lean ====
section
/-! SUPPORT. The laws of the status register: reading a flag after writing one, and what each flag computation of files
40 to 45 does to every flag. -/

namespace Sys2Proof.Machine

theorem getLsbD_setBit {w : Nat} (v : BitVec w) (i j : Nat) (b : Bool) (hj : j < w) :
    (setBit v i b).getLsbD j = if j = i then b else v.getLsbD j := by
  cases b
  · simp only [setBit, Bool.false_eq_true, if_false, BitVec.getLsbD_and, BitVec.getLsbD_not, BitVec.getLsbD_shiftLeft,
      BitVec.getLsbD_one]
    by_cases h : j = i
    · subst h; simp [hj]; omega
    · by_cases hl : j < i
      · simp [h, hj, hl]
      · have : ¬ (j - i = 0) := by omega
        simp [h, hj, hl, this]
  · simp only [setBit, if_true, BitVec.getLsbD_or, BitVec.getLsbD_shiftLeft, BitVec.getLsbD_one]
    by_cases h : j = i
    · subst h; simp [hj]; omega
    · by_cases hl : j < i
      · simp [h, hl]
      · have : ¬ (j - i = 0) := by omega
        simp [h, hj, this]

theorem Flag.bit_lt (f : Flag) : f.bit < 8 := by cases f <;> decide

theorem Flag.bit_inj {f g : Flag} : f.bit = g.bit ↔ f = g := by cases f <;> cases g <;> decide

/-- A flag after a flag write: the written one holds the written value, every other is unchanged. -/
@[simp] theorem flag_setFlag (p : Byte) (f g : Flag) (b : Bool) :
    flag (setFlag p f b) g = if g = f then b else flag p g := by
  simp only [flag, setFlag, getLsbD_setBit _ _ _ _ g.bit_lt, Flag.bit_inj]

/-- `SetNZ` writes N and Z and nothing else. -/
@[simp] theorem flag_setNZ (p v : Byte) (g : Flag) :
    flag (setNZ p v) g = if g = .N then v.getLsbD 7 else if g = .Z then decide (v = 0) else flag p g := by
  simp only [setNZ, flag_setFlag]

/-- The status register is its eight flags. -/
theorem status_ext {p q : Byte} (h : ∀ f, flag p f = flag q f) : p = q := by
  apply BitVec.eq_of_getLsbD_eq
  intro i hi
  have hC := h .C; have hZ := h .Z; have hI := h .I; have hD := h .D
  have hB := h .B; have hU := h .U; have hV := h .V; have hN := h .N
  simp only [flag, Flag.bit] at *
  match i, hi with
  | 0, _ => exact hC
  | 1, _ => exact hZ
  | 2, _ => exact hI
  | 3, _ => exact hD
  | 4, _ => exact hB
  | 5, _ => exact hU
  | 6, _ => exact hV
  | 7, _ => exact hN

/-- PLP and RTI take every flag but B and U from the pulled byte (10_state R28). -/
@[simp] theorem flag_pulledStatus (v : Byte) (g : Flag) :
    flag (pulledStatus v) g = if g = .U then true else if g = .B then false else flag v g := by
  cases g <;> simp [flag, pulledStatus, Flag.bit]

/-- The byte PHP pushes has B and U set and the other flags of P. -/
@[simp] theorem flag_phpStatus (p : Byte) (g : Flag) :
    flag (phpStatus p) g = if g = .U ∨ g = .B then true else flag p g := by
  cases g <;> simp [flag, phpStatus, Flag.bit]

/-- The byte an entry pushes (60_exceptions R310, 45 R279). -/
@[simp] theorem flag_entryStatus (brk : Bool) (p : Byte) (g : Flag) :
    flag (entryStatus brk p) g = if g = .I ∨ g = .U then true else if g = .B then brk else flag p g := by
  cases g <;> simp [entryStatus]

theorem carry_le_one (p : Byte) : carry p ≤ 1 := by
  unfold carry; cases flag p .C <;> decide

/-- ADC and SBC leave I, D, B and U alone. -/
theorem flag_adc_other (a m p : Byte) (g : Flag) (hC : g ≠ .C) (hV : g ≠ .V) (hZ : g ≠ .Z) (hN : g ≠ .N) :
    flag (adc a m p).2 g = flag p g := by simp [adc, hC, hV, hZ, hN]

theorem flag_adc_carry (a m p : Byte) : flag (adc a m p).2 .C = decide (255 < a.toNat + m.toNat + carry p) := by
  simp [adc]

theorem flag_adc_overflow (a m p : Byte) :
    flag (adc a m p).2 .V = decide ((~~~(a ^^^ m)) &&& (a ^^^ (adc a m p).1) &&& 0x80 ≠ 0) := by simp [adc]

theorem adc_result (a m p : Byte) : (adc a m p).1 = BitVec.ofNat 8 (a.toNat + m.toNat + carry p) := rfl

/-- A compare leaves V, I, D, B and U alone and writes C, Z and N. -/
@[simp] theorem flag_compare (r m p : Byte) (g : Flag) :
    flag (compare r m p) g =
      if g = .N then (r - m).getLsbD 7 else if g = .Z then decide (r - m = 0)
      else if g = .C then decide (m ≤ r) else flag p g := by
  simp [compare]

/-- BIT writes V, N and Z. -/
@[simp] theorem flag_bitTest (a m p : Byte) (g : Flag) :
    flag (bitTest a m p) g =
      if g = .V then m.getLsbD 6 else if g = .N then m.getLsbD 7
      else if g = .Z then decide (a &&& m = 0) else flag p g := by
  simp [bitTest]

/-- Whether a computation of a result and a status leaves the flags I, D, B and U alone. -/
def KeepsControlFlags (f : Byte → Byte → Byte × Byte) : Prop :=
  ∀ m p g, g = .I ∨ g = .D ∨ g = .B ∨ g = .U → flag (f m p).2 g = flag p g

theorem asl_keeps : KeepsControlFlags asl := by rintro m p g (rfl | rfl | rfl | rfl) <;> simp [asl]
theorem lsr_keeps : KeepsControlFlags lsr := by rintro m p g (rfl | rfl | rfl | rfl) <;> simp [lsr]
theorem rol_keeps : KeepsControlFlags rol := by rintro m p g (rfl | rfl | rfl | rfl) <;> simp [rol]
theorem ror_keeps : KeepsControlFlags ror := by rintro m p g (rfl | rfl | rfl | rfl) <;> simp [ror]
theorem inc_keeps : KeepsControlFlags inc := by rintro m p g (rfl | rfl | rfl | rfl) <;> simp [inc]
theorem dec_keeps : KeepsControlFlags dec := by rintro m p g (rfl | rfl | rfl | rfl) <;> simp [dec]
theorem adc_keeps (a : Byte) : KeepsControlFlags (adc a) := by rintro m p g (rfl | rfl | rfl | rfl) <;> simp [adc]
theorem sbc_keeps (a : Byte) : KeepsControlFlags (sbc a) := by rintro m p g (rfl | rfl | rfl | rfl) <;> simp [sbc, adc]

end Sys2Proof.Machine
end

