-- ==== Sys2Proof/Laws/Memory.lean ====
section
/-! SUPPORT. The laws of a store: a read after a write, and the canonical form that every write keeps. -/

namespace Sys2Proof.Machine

@[simp] theorem Memory.read_nil (a : Nat) : Memory.read [] a = 0 := rfl

theorem Memory.read_erase (m : Memory) (a b : Nat) :
    Memory.read (Memory.erase m a) b = if b = a then 0 else Memory.read m b := by
  induction m with
  | nil => simp [Memory.erase]
  | cons kb m ih =>
    obtain ⟨k, v⟩ := kb
    by_cases hk : k = a
    · subst hk
      simp only [Memory.erase, if_true, ih, Memory.read]
      by_cases hb : b = k
      · simp [hb]
      · simp [hb, Ne.symm hb]
    · simp only [Memory.erase, hk, if_false, Memory.read, ih]
      by_cases hkb : k = b
      · subst hkb; simp [hk]
      · simp [hkb]

theorem Memory.read_insert (m : Memory) (a b : Nat) (v : Byte) (h : Memory.read m a = 0)
    (hm : ∀ x ∈ m, x.1 ≠ a) :
    Memory.read (Memory.insert m a v) b = if b = a then v else Memory.read m b := by
  induction m with
  | nil =>
    by_cases hb : b = a
    · simp [Memory.insert, Memory.read, hb]
    · simp [Memory.insert, Memory.read, hb, Ne.symm hb]
  | cons kb m ih =>
    obtain ⟨k, w⟩ := kb
    have hk : k ≠ a := hm (k, w) List.mem_cons_self
    have hm' : ∀ x ∈ m, x.1 ≠ a := fun x hx => hm x (List.mem_cons_of_mem _ hx)
    simp only [Memory.read, hk, if_false] at h
    simp only [Memory.insert]
    by_cases hb : b = a
    · subst hb
      by_cases hak : b < k
      · simp [hak, Memory.read]
      · simp [hak, Memory.read, hk, ih h hm']
    · by_cases hak : a < k
      · simp [hak, Memory.read, hb, Ne.symm hb]
      · simp [hak, Memory.read, hb, ih h hm']

theorem Memory.mem_erase {m : Memory} {a : Nat} {x : Host.Cell} (h : x ∈ Memory.erase m a) : x ∈ m ∧ x.1 ≠ a := by
  induction m with
  | nil => simp [Memory.erase] at h
  | cons kb m ih =>
    obtain ⟨k, v⟩ := kb
    by_cases hk : k = a
    · simp only [Memory.erase, hk, if_true] at h
      exact ⟨List.mem_cons_of_mem _ (ih h).1, (ih h).2⟩
    · simp only [Memory.erase, hk, if_false, List.mem_cons] at h
      rcases h with rfl | h
      · exact ⟨List.mem_cons_self, hk⟩
      · exact ⟨List.mem_cons_of_mem _ (ih h).1, (ih h).2⟩

/-- A read after a write: the written byte at the written address, what was there before at every other. -/
@[simp] theorem Memory.read_write (m : Memory) (a b : Nat) (v : Byte) :
    Memory.read (Memory.write m a v) b = if b = a then v else Memory.read m b := by
  unfold Memory.write
  by_cases hv : v = Memory.unlisted
  · rw [if_pos hv, Memory.read_erase]
    subst hv
    rfl
  · rw [if_neg hv, Memory.read_insert _ _ _ _ (by simp [Memory.read_erase]) (fun x hx => (Memory.mem_erase hx).2),
      Memory.read_erase]
    by_cases hb : b = a <;> simp [hb]

theorem Memory.read_write_same (m : Memory) (a : Nat) (v : Byte) : Memory.read (Memory.write m a v) a = v := by simp

theorem Memory.read_write_other (m : Memory) {a b : Nat} (v : Byte) (h : b ≠ a) :
    Memory.read (Memory.write m a v) b = Memory.read m b := by simp [h]

theorem Memory.above_iff (m : Memory) (a : Nat) : Memory.above a m = true ↔ ∀ x ∈ m, a < x.1 := by
  induction m with
  | nil => simp [Memory.above]
  | cons kb m ih => obtain ⟨k, v⟩ := kb; simp [Memory.above, ih]

theorem Memory.wf_erase {m : Memory} (a : Nat) (h : Memory.wf m = true) : Memory.wf (Memory.erase m a) = true := by
  induction m with
  | nil => exact h
  | cons kb m ih =>
    obtain ⟨k, v⟩ := kb
    simp only [Memory.wf, Bool.and_eq_true, decide_eq_true_eq] at h
    by_cases hk : k = a
    · simpa [Memory.erase, hk] using ih h.2
    · simp only [Memory.erase, hk, if_false, Memory.wf, Bool.and_eq_true, decide_eq_true_eq]
      exact ⟨⟨h.1.1, (Memory.above_iff _ _).2 fun x hx => (Memory.above_iff _ _).1 h.1.2 x (Memory.mem_erase hx).1⟩,
        ih h.2⟩

theorem Memory.mem_insert {m : Memory} {a : Nat} {v : Byte} {x : Host.Cell} (h : x ∈ Memory.insert m a v) :
    x = (a, v) ∨ x ∈ m := by
  induction m with
  | nil => simpa [Memory.insert] using h
  | cons kb m ih =>
    obtain ⟨k, w⟩ := kb
    by_cases hak : a < k
    · simpa [Memory.insert, hak] using h
    · simp only [Memory.insert, hak, if_false, List.mem_cons] at h
      rcases h with rfl | h
      · exact .inr List.mem_cons_self
      · exact (ih h).imp_right (List.mem_cons_of_mem _)

theorem Memory.wf_insert {m : Memory} {a : Nat} {v : Byte} (hv : v ≠ Memory.unlisted) (hm : ∀ x ∈ m, x.1 ≠ a)
    (h : Memory.wf m = true) : Memory.wf (Memory.insert m a v) = true := by
  induction m with
  | nil => simpa [Memory.insert, Memory.wf, Memory.above] using hv
  | cons kb m ih =>
    obtain ⟨k, w⟩ := kb
    have hk : k ≠ a := hm (k, w) List.mem_cons_self
    have h0 := h
    simp only [Memory.wf, Bool.and_eq_true, decide_eq_true_eq] at h
    by_cases hak : a < k
    · have habove : Memory.above a ((k, w) :: m) = true := by
        rw [Memory.above_iff]
        intro x hx
        rcases List.mem_cons.1 hx with rfl | hx
        · exact hak
        · exact hak.trans ((Memory.above_iff _ _).1 h.1.2 x hx)
      simp only [Memory.insert, hak, if_true, Memory.wf, habove, Bool.and_true, Bool.and_eq_true, decide_eq_true_eq]
      exact ⟨hv, ⟨h.1.1, h.1.2⟩, h.2⟩
    · simp only [Memory.insert, hak, if_false, Memory.wf, Bool.and_eq_true, decide_eq_true_eq]
      refine ⟨⟨h.1.1, (Memory.above_iff _ _).2 fun x hx => ?_⟩, ih (fun x hx => hm x (List.mem_cons_of_mem _ hx)) h.2⟩
      rcases Memory.mem_insert hx with rfl | hx
      · show k < a
        omega
      · exact (Memory.above_iff _ _).1 h.1.2 x hx

/-- A write keeps the canonical form. -/
theorem Memory.wf_write {m : Memory} (a : Nat) (v : Byte) (h : Memory.wf m = true) :
    Memory.wf (Memory.write m a v) = true := by
  unfold Memory.write
  split
  · exact Memory.wf_erase a h
  · exact Memory.wf_insert ‹_› (fun x hx => (Memory.mem_erase hx).2) (Memory.wf_erase a h)

/-- Two canonical stores that read alike at every address are equal data. -/
theorem Memory.read_eq_zero_of_above {m : Memory} {a : Nat} (h : Memory.above a m = true) (b : Nat) (hb : b ≤ a) :
    Memory.read m b = 0 := by
  induction m with
  | nil => rfl
  | cons kb m ih =>
    obtain ⟨k, v⟩ := kb
    simp only [Memory.above, Bool.and_eq_true, decide_eq_true_eq] at h
    have : k ≠ b := by omega
    simp [Memory.read, this, ih h.2]

theorem Memory.ext_read {m n : Memory} (hm : Memory.wf m = true) (hn : Memory.wf n = true)
    (h : ∀ a, Memory.read m a = Memory.read n a) : m = n := by
  induction m generalizing n with
  | nil =>
    cases n with
    | nil => rfl
    | cons kb n =>
      obtain ⟨k, v⟩ := kb
      simp only [Memory.wf, Bool.and_eq_true, decide_eq_true_eq] at hn
      exact absurd (h k).symm (by simpa [Memory.read, Memory.unlisted] using hn.1.1)
  | cons kb m ih =>
    obtain ⟨k, v⟩ := kb
    have hm0 := hm
    simp only [Memory.wf, Bool.and_eq_true, decide_eq_true_eq] at hm
    cases n with
    | nil => exact absurd (h k) (by simpa [Memory.read, Memory.unlisted] using hm.1.1)
    | cons lw n =>
      obtain ⟨l, w⟩ := lw
      simp only [Memory.wf, Bool.and_eq_true, decide_eq_true_eq] at hn
      have hkl : k = l := by
        rcases Nat.lt_trichotomy k l with hlt | heq | hgt
        · have h1 := h k
          have : l ≠ k := by omega
          simp only [Memory.read, if_true, this, if_false,
            Memory.read_eq_zero_of_above hn.1.2 k (by omega)] at h1
          exact absurd h1 hm.1.1
        · exact heq
        · have h1 := h l
          have : k ≠ l := by omega
          simp only [Memory.read, if_true, this, if_false,
            Memory.read_eq_zero_of_above hm.1.2 l (by omega)] at h1
          exact absurd h1.symm hn.1.1
      subst hkl
      have hvw : v = w := by simpa [Memory.read] using h k
      subst hvw
      have : m = n := by
        refine ih hm.2 hn.2 fun a => ?_
        by_cases ha : k = a
        · subst ha
          rw [Memory.read_eq_zero_of_above hm.1.2 k (Nat.le_refl k),
            Memory.read_eq_zero_of_above hn.1.2 k (Nat.le_refl k)]
        · simpa [Memory.read, ha] using h a
      rw [this]

end Sys2Proof.Machine
end

