-- ==== Sys2Proof/Laws/State.lean ====
section
/-! SUPPORT. One lemma per field of `State` per register update, so that no proof unfolds a record update. `cpu` is the
one field an update writes; every other field is unchanged. -/

namespace Sys2Proof.Machine

@[simp] theorem setA_cpu (s : State) (v : Byte) : (s.setA v).cpu = { s.cpu with a := v } := rfl
@[simp] theorem setA_ram (s : State) (v : Byte) : (s.setA v).ram = s.ram := rfl
@[simp] theorem setA_dma (s : State) (v : Byte) : (s.setA v).dma = s.dma := rfl
@[simp] theorem setA_controller0 (s : State) (v : Byte) : (s.setA v).controller0 = s.controller0 := rfl
@[simp] theorem setA_controller1 (s : State) (v : Byte) : (s.setA v).controller1 = s.controller1 := rfl
@[simp] theorem setA_ctrlShift0 (s : State) (v : Byte) : (s.setA v).ctrlShift0 = s.ctrlShift0 := rfl
@[simp] theorem setA_ctrlShift1 (s : State) (v : Byte) : (s.setA v).ctrlShift1 = s.ctrlShift1 := rfl
@[simp] theorem setA_systemClock (s : State) (v : Byte) : (s.setA v).systemClock = s.systemClock := rfl
@[simp] theorem setA_audioTime (s : State) (v : Byte) : (s.setA v).audioTime = s.audioTime := rfl
@[simp] theorem setA_sampleReady (s : State) (v : Byte) : (s.setA v).sampleReady = s.sampleReady := rfl
@[simp] theorem setA_ppu (s : State) (v : Byte) : (s.setA v).ppu = s.ppu := rfl
@[simp] theorem setA_apu (s : State) (v : Byte) : (s.setA v).apu = s.apu := rfl
@[simp] theorem setA_cart (s : State) (v : Byte) : (s.setA v).cart = s.cart := rfl
@[simp] theorem setA_config (s : State) (v : Byte) : (s.setA v).config = s.config := rfl
@[simp] theorem setA_illegalTrace (s : State) (v : Byte) : (s.setA v).illegalTrace = s.illegalTrace := rfl
@[simp] theorem setA_freeCount (s : State) (v : Byte) : (s.setA v).freeCount = s.freeCount := rfl

@[simp] theorem setX_cpu (s : State) (v : Byte) : (s.setX v).cpu = { s.cpu with x := v } := rfl
@[simp] theorem setX_ram (s : State) (v : Byte) : (s.setX v).ram = s.ram := rfl
@[simp] theorem setX_dma (s : State) (v : Byte) : (s.setX v).dma = s.dma := rfl
@[simp] theorem setX_controller0 (s : State) (v : Byte) : (s.setX v).controller0 = s.controller0 := rfl
@[simp] theorem setX_controller1 (s : State) (v : Byte) : (s.setX v).controller1 = s.controller1 := rfl
@[simp] theorem setX_ctrlShift0 (s : State) (v : Byte) : (s.setX v).ctrlShift0 = s.ctrlShift0 := rfl
@[simp] theorem setX_ctrlShift1 (s : State) (v : Byte) : (s.setX v).ctrlShift1 = s.ctrlShift1 := rfl
@[simp] theorem setX_systemClock (s : State) (v : Byte) : (s.setX v).systemClock = s.systemClock := rfl
@[simp] theorem setX_audioTime (s : State) (v : Byte) : (s.setX v).audioTime = s.audioTime := rfl
@[simp] theorem setX_sampleReady (s : State) (v : Byte) : (s.setX v).sampleReady = s.sampleReady := rfl
@[simp] theorem setX_ppu (s : State) (v : Byte) : (s.setX v).ppu = s.ppu := rfl
@[simp] theorem setX_apu (s : State) (v : Byte) : (s.setX v).apu = s.apu := rfl
@[simp] theorem setX_cart (s : State) (v : Byte) : (s.setX v).cart = s.cart := rfl
@[simp] theorem setX_config (s : State) (v : Byte) : (s.setX v).config = s.config := rfl
@[simp] theorem setX_illegalTrace (s : State) (v : Byte) : (s.setX v).illegalTrace = s.illegalTrace := rfl
@[simp] theorem setX_freeCount (s : State) (v : Byte) : (s.setX v).freeCount = s.freeCount := rfl

@[simp] theorem setY_cpu (s : State) (v : Byte) : (s.setY v).cpu = { s.cpu with y := v } := rfl
@[simp] theorem setY_ram (s : State) (v : Byte) : (s.setY v).ram = s.ram := rfl
@[simp] theorem setY_dma (s : State) (v : Byte) : (s.setY v).dma = s.dma := rfl
@[simp] theorem setY_controller0 (s : State) (v : Byte) : (s.setY v).controller0 = s.controller0 := rfl
@[simp] theorem setY_controller1 (s : State) (v : Byte) : (s.setY v).controller1 = s.controller1 := rfl
@[simp] theorem setY_ctrlShift0 (s : State) (v : Byte) : (s.setY v).ctrlShift0 = s.ctrlShift0 := rfl
@[simp] theorem setY_ctrlShift1 (s : State) (v : Byte) : (s.setY v).ctrlShift1 = s.ctrlShift1 := rfl
@[simp] theorem setY_systemClock (s : State) (v : Byte) : (s.setY v).systemClock = s.systemClock := rfl
@[simp] theorem setY_audioTime (s : State) (v : Byte) : (s.setY v).audioTime = s.audioTime := rfl
@[simp] theorem setY_sampleReady (s : State) (v : Byte) : (s.setY v).sampleReady = s.sampleReady := rfl
@[simp] theorem setY_ppu (s : State) (v : Byte) : (s.setY v).ppu = s.ppu := rfl
@[simp] theorem setY_apu (s : State) (v : Byte) : (s.setY v).apu = s.apu := rfl
@[simp] theorem setY_cart (s : State) (v : Byte) : (s.setY v).cart = s.cart := rfl
@[simp] theorem setY_config (s : State) (v : Byte) : (s.setY v).config = s.config := rfl
@[simp] theorem setY_illegalTrace (s : State) (v : Byte) : (s.setY v).illegalTrace = s.illegalTrace := rfl
@[simp] theorem setY_freeCount (s : State) (v : Byte) : (s.setY v).freeCount = s.freeCount := rfl

@[simp] theorem setSp_cpu (s : State) (v : Byte) : (s.setSp v).cpu = { s.cpu with sp := v } := rfl
@[simp] theorem setSp_ram (s : State) (v : Byte) : (s.setSp v).ram = s.ram := rfl
@[simp] theorem setSp_dma (s : State) (v : Byte) : (s.setSp v).dma = s.dma := rfl
@[simp] theorem setSp_controller0 (s : State) (v : Byte) : (s.setSp v).controller0 = s.controller0 := rfl
@[simp] theorem setSp_controller1 (s : State) (v : Byte) : (s.setSp v).controller1 = s.controller1 := rfl
@[simp] theorem setSp_ctrlShift0 (s : State) (v : Byte) : (s.setSp v).ctrlShift0 = s.ctrlShift0 := rfl
@[simp] theorem setSp_ctrlShift1 (s : State) (v : Byte) : (s.setSp v).ctrlShift1 = s.ctrlShift1 := rfl
@[simp] theorem setSp_systemClock (s : State) (v : Byte) : (s.setSp v).systemClock = s.systemClock := rfl
@[simp] theorem setSp_audioTime (s : State) (v : Byte) : (s.setSp v).audioTime = s.audioTime := rfl
@[simp] theorem setSp_sampleReady (s : State) (v : Byte) : (s.setSp v).sampleReady = s.sampleReady := rfl
@[simp] theorem setSp_ppu (s : State) (v : Byte) : (s.setSp v).ppu = s.ppu := rfl
@[simp] theorem setSp_apu (s : State) (v : Byte) : (s.setSp v).apu = s.apu := rfl
@[simp] theorem setSp_cart (s : State) (v : Byte) : (s.setSp v).cart = s.cart := rfl
@[simp] theorem setSp_config (s : State) (v : Byte) : (s.setSp v).config = s.config := rfl
@[simp] theorem setSp_illegalTrace (s : State) (v : Byte) : (s.setSp v).illegalTrace = s.illegalTrace := rfl
@[simp] theorem setSp_freeCount (s : State) (v : Byte) : (s.setSp v).freeCount = s.freeCount := rfl

@[simp] theorem setP_cpu (s : State) (v : Byte) : (s.setP v).cpu = { s.cpu with p := v } := rfl
@[simp] theorem setP_ram (s : State) (v : Byte) : (s.setP v).ram = s.ram := rfl
@[simp] theorem setP_dma (s : State) (v : Byte) : (s.setP v).dma = s.dma := rfl
@[simp] theorem setP_controller0 (s : State) (v : Byte) : (s.setP v).controller0 = s.controller0 := rfl
@[simp] theorem setP_controller1 (s : State) (v : Byte) : (s.setP v).controller1 = s.controller1 := rfl
@[simp] theorem setP_ctrlShift0 (s : State) (v : Byte) : (s.setP v).ctrlShift0 = s.ctrlShift0 := rfl
@[simp] theorem setP_ctrlShift1 (s : State) (v : Byte) : (s.setP v).ctrlShift1 = s.ctrlShift1 := rfl
@[simp] theorem setP_systemClock (s : State) (v : Byte) : (s.setP v).systemClock = s.systemClock := rfl
@[simp] theorem setP_audioTime (s : State) (v : Byte) : (s.setP v).audioTime = s.audioTime := rfl
@[simp] theorem setP_sampleReady (s : State) (v : Byte) : (s.setP v).sampleReady = s.sampleReady := rfl
@[simp] theorem setP_ppu (s : State) (v : Byte) : (s.setP v).ppu = s.ppu := rfl
@[simp] theorem setP_apu (s : State) (v : Byte) : (s.setP v).apu = s.apu := rfl
@[simp] theorem setP_cart (s : State) (v : Byte) : (s.setP v).cart = s.cart := rfl
@[simp] theorem setP_config (s : State) (v : Byte) : (s.setP v).config = s.config := rfl
@[simp] theorem setP_illegalTrace (s : State) (v : Byte) : (s.setP v).illegalTrace = s.illegalTrace := rfl
@[simp] theorem setP_freeCount (s : State) (v : Byte) : (s.setP v).freeCount = s.freeCount := rfl

@[simp] theorem setPc_cpu (s : State) (v : Word) : (s.setPc v).cpu = { s.cpu with pc := v } := rfl
@[simp] theorem setPc_ram (s : State) (v : Word) : (s.setPc v).ram = s.ram := rfl
@[simp] theorem setPc_dma (s : State) (v : Word) : (s.setPc v).dma = s.dma := rfl
@[simp] theorem setPc_controller0 (s : State) (v : Word) : (s.setPc v).controller0 = s.controller0 := rfl
@[simp] theorem setPc_controller1 (s : State) (v : Word) : (s.setPc v).controller1 = s.controller1 := rfl
@[simp] theorem setPc_ctrlShift0 (s : State) (v : Word) : (s.setPc v).ctrlShift0 = s.ctrlShift0 := rfl
@[simp] theorem setPc_ctrlShift1 (s : State) (v : Word) : (s.setPc v).ctrlShift1 = s.ctrlShift1 := rfl
@[simp] theorem setPc_systemClock (s : State) (v : Word) : (s.setPc v).systemClock = s.systemClock := rfl
@[simp] theorem setPc_audioTime (s : State) (v : Word) : (s.setPc v).audioTime = s.audioTime := rfl
@[simp] theorem setPc_sampleReady (s : State) (v : Word) : (s.setPc v).sampleReady = s.sampleReady := rfl
@[simp] theorem setPc_ppu (s : State) (v : Word) : (s.setPc v).ppu = s.ppu := rfl
@[simp] theorem setPc_apu (s : State) (v : Word) : (s.setPc v).apu = s.apu := rfl
@[simp] theorem setPc_cart (s : State) (v : Word) : (s.setPc v).cart = s.cart := rfl
@[simp] theorem setPc_config (s : State) (v : Word) : (s.setPc v).config = s.config := rfl
@[simp] theorem setPc_illegalTrace (s : State) (v : Word) : (s.setPc v).illegalTrace = s.illegalTrace := rfl
@[simp] theorem setPc_freeCount (s : State) (v : Word) : (s.setPc v).freeCount = s.freeCount := rfl

@[simp] theorem setCycles_cpu (s : State) (v : Nat) : (s.setCycles v).cpu = { s.cpu with remainingCycles := v } := rfl
@[simp] theorem setCycles_ram (s : State) (v : Nat) : (s.setCycles v).ram = s.ram := rfl
@[simp] theorem setCycles_dma (s : State) (v : Nat) : (s.setCycles v).dma = s.dma := rfl
@[simp] theorem setCycles_controller0 (s : State) (v : Nat) : (s.setCycles v).controller0 = s.controller0 := rfl
@[simp] theorem setCycles_controller1 (s : State) (v : Nat) : (s.setCycles v).controller1 = s.controller1 := rfl
@[simp] theorem setCycles_ctrlShift0 (s : State) (v : Nat) : (s.setCycles v).ctrlShift0 = s.ctrlShift0 := rfl
@[simp] theorem setCycles_ctrlShift1 (s : State) (v : Nat) : (s.setCycles v).ctrlShift1 = s.ctrlShift1 := rfl
@[simp] theorem setCycles_systemClock (s : State) (v : Nat) : (s.setCycles v).systemClock = s.systemClock := rfl
@[simp] theorem setCycles_audioTime (s : State) (v : Nat) : (s.setCycles v).audioTime = s.audioTime := rfl
@[simp] theorem setCycles_sampleReady (s : State) (v : Nat) : (s.setCycles v).sampleReady = s.sampleReady := rfl
@[simp] theorem setCycles_ppu (s : State) (v : Nat) : (s.setCycles v).ppu = s.ppu := rfl
@[simp] theorem setCycles_apu (s : State) (v : Nat) : (s.setCycles v).apu = s.apu := rfl
@[simp] theorem setCycles_cart (s : State) (v : Nat) : (s.setCycles v).cart = s.cart := rfl
@[simp] theorem setCycles_config (s : State) (v : Nat) : (s.setCycles v).config = s.config := rfl
@[simp] theorem setCycles_illegalTrace (s : State) (v : Nat) : (s.setCycles v).illegalTrace = s.illegalTrace := rfl
@[simp] theorem setCycles_freeCount (s : State) (v : Nat) : (s.setCycles v).freeCount = s.freeCount := rfl

@[simp] theorem setInputAlu_cpu (s : State) (v : Byte) : (s.setInputAlu v).cpu = { s.cpu with inputAlu := v } := rfl
@[simp] theorem setInputAlu_ram (s : State) (v : Byte) : (s.setInputAlu v).ram = s.ram := rfl
@[simp] theorem setInputAlu_dma (s : State) (v : Byte) : (s.setInputAlu v).dma = s.dma := rfl
@[simp] theorem setInputAlu_controller0 (s : State) (v : Byte) : (s.setInputAlu v).controller0 = s.controller0 := rfl
@[simp] theorem setInputAlu_controller1 (s : State) (v : Byte) : (s.setInputAlu v).controller1 = s.controller1 := rfl
@[simp] theorem setInputAlu_ctrlShift0 (s : State) (v : Byte) : (s.setInputAlu v).ctrlShift0 = s.ctrlShift0 := rfl
@[simp] theorem setInputAlu_ctrlShift1 (s : State) (v : Byte) : (s.setInputAlu v).ctrlShift1 = s.ctrlShift1 := rfl
@[simp] theorem setInputAlu_systemClock (s : State) (v : Byte) : (s.setInputAlu v).systemClock = s.systemClock := rfl
@[simp] theorem setInputAlu_audioTime (s : State) (v : Byte) : (s.setInputAlu v).audioTime = s.audioTime := rfl
@[simp] theorem setInputAlu_sampleReady (s : State) (v : Byte) : (s.setInputAlu v).sampleReady = s.sampleReady := rfl
@[simp] theorem setInputAlu_ppu (s : State) (v : Byte) : (s.setInputAlu v).ppu = s.ppu := rfl
@[simp] theorem setInputAlu_apu (s : State) (v : Byte) : (s.setInputAlu v).apu = s.apu := rfl
@[simp] theorem setInputAlu_cart (s : State) (v : Byte) : (s.setInputAlu v).cart = s.cart := rfl
@[simp] theorem setInputAlu_config (s : State) (v : Byte) : (s.setInputAlu v).config = s.config := rfl
@[simp] theorem setInputAlu_illegalTrace (s : State) (v : Byte) : (s.setInputAlu v).illegalTrace = s.illegalTrace := rfl
@[simp] theorem setInputAlu_freeCount (s : State) (v : Byte) : (s.setInputAlu v).freeCount = s.freeCount := rfl

@[simp] theorem setAbsoluteAddr_cpu (s : State) (v : Word) : (s.setAbsoluteAddr v).cpu = { s.cpu with absoluteAddr := v } := rfl
@[simp] theorem setAbsoluteAddr_ram (s : State) (v : Word) : (s.setAbsoluteAddr v).ram = s.ram := rfl
@[simp] theorem setAbsoluteAddr_dma (s : State) (v : Word) : (s.setAbsoluteAddr v).dma = s.dma := rfl
@[simp] theorem setAbsoluteAddr_controller0 (s : State) (v : Word) : (s.setAbsoluteAddr v).controller0 = s.controller0 := rfl
@[simp] theorem setAbsoluteAddr_controller1 (s : State) (v : Word) : (s.setAbsoluteAddr v).controller1 = s.controller1 := rfl
@[simp] theorem setAbsoluteAddr_ctrlShift0 (s : State) (v : Word) : (s.setAbsoluteAddr v).ctrlShift0 = s.ctrlShift0 := rfl
@[simp] theorem setAbsoluteAddr_ctrlShift1 (s : State) (v : Word) : (s.setAbsoluteAddr v).ctrlShift1 = s.ctrlShift1 := rfl
@[simp] theorem setAbsoluteAddr_systemClock (s : State) (v : Word) : (s.setAbsoluteAddr v).systemClock = s.systemClock := rfl
@[simp] theorem setAbsoluteAddr_audioTime (s : State) (v : Word) : (s.setAbsoluteAddr v).audioTime = s.audioTime := rfl
@[simp] theorem setAbsoluteAddr_sampleReady (s : State) (v : Word) : (s.setAbsoluteAddr v).sampleReady = s.sampleReady := rfl
@[simp] theorem setAbsoluteAddr_ppu (s : State) (v : Word) : (s.setAbsoluteAddr v).ppu = s.ppu := rfl
@[simp] theorem setAbsoluteAddr_apu (s : State) (v : Word) : (s.setAbsoluteAddr v).apu = s.apu := rfl
@[simp] theorem setAbsoluteAddr_cart (s : State) (v : Word) : (s.setAbsoluteAddr v).cart = s.cart := rfl
@[simp] theorem setAbsoluteAddr_config (s : State) (v : Word) : (s.setAbsoluteAddr v).config = s.config := rfl
@[simp] theorem setAbsoluteAddr_illegalTrace (s : State) (v : Word) : (s.setAbsoluteAddr v).illegalTrace = s.illegalTrace := rfl
@[simp] theorem setAbsoluteAddr_freeCount (s : State) (v : Word) : (s.setAbsoluteAddr v).freeCount = s.freeCount := rfl

@[simp] theorem setRelativeAddr_cpu (s : State) (v : Word) : (s.setRelativeAddr v).cpu = { s.cpu with relativeAddr := v } := rfl
@[simp] theorem setRelativeAddr_ram (s : State) (v : Word) : (s.setRelativeAddr v).ram = s.ram := rfl
@[simp] theorem setRelativeAddr_dma (s : State) (v : Word) : (s.setRelativeAddr v).dma = s.dma := rfl
@[simp] theorem setRelativeAddr_controller0 (s : State) (v : Word) : (s.setRelativeAddr v).controller0 = s.controller0 := rfl
@[simp] theorem setRelativeAddr_controller1 (s : State) (v : Word) : (s.setRelativeAddr v).controller1 = s.controller1 := rfl
@[simp] theorem setRelativeAddr_ctrlShift0 (s : State) (v : Word) : (s.setRelativeAddr v).ctrlShift0 = s.ctrlShift0 := rfl
@[simp] theorem setRelativeAddr_ctrlShift1 (s : State) (v : Word) : (s.setRelativeAddr v).ctrlShift1 = s.ctrlShift1 := rfl
@[simp] theorem setRelativeAddr_systemClock (s : State) (v : Word) : (s.setRelativeAddr v).systemClock = s.systemClock := rfl
@[simp] theorem setRelativeAddr_audioTime (s : State) (v : Word) : (s.setRelativeAddr v).audioTime = s.audioTime := rfl
@[simp] theorem setRelativeAddr_sampleReady (s : State) (v : Word) : (s.setRelativeAddr v).sampleReady = s.sampleReady := rfl
@[simp] theorem setRelativeAddr_ppu (s : State) (v : Word) : (s.setRelativeAddr v).ppu = s.ppu := rfl
@[simp] theorem setRelativeAddr_apu (s : State) (v : Word) : (s.setRelativeAddr v).apu = s.apu := rfl
@[simp] theorem setRelativeAddr_cart (s : State) (v : Word) : (s.setRelativeAddr v).cart = s.cart := rfl
@[simp] theorem setRelativeAddr_config (s : State) (v : Word) : (s.setRelativeAddr v).config = s.config := rfl
@[simp] theorem setRelativeAddr_illegalTrace (s : State) (v : Word) : (s.setRelativeAddr v).illegalTrace = s.illegalTrace := rfl
@[simp] theorem setRelativeAddr_freeCount (s : State) (v : Word) : (s.setRelativeAddr v).freeCount = s.freeCount := rfl

@[simp] theorem setOpcode_cpu (s : State) (v : Byte) : (s.setOpcode v).cpu = { s.cpu with opcode := v } := rfl
@[simp] theorem setOpcode_ram (s : State) (v : Byte) : (s.setOpcode v).ram = s.ram := rfl
@[simp] theorem setOpcode_dma (s : State) (v : Byte) : (s.setOpcode v).dma = s.dma := rfl
@[simp] theorem setOpcode_controller0 (s : State) (v : Byte) : (s.setOpcode v).controller0 = s.controller0 := rfl
@[simp] theorem setOpcode_controller1 (s : State) (v : Byte) : (s.setOpcode v).controller1 = s.controller1 := rfl
@[simp] theorem setOpcode_ctrlShift0 (s : State) (v : Byte) : (s.setOpcode v).ctrlShift0 = s.ctrlShift0 := rfl
@[simp] theorem setOpcode_ctrlShift1 (s : State) (v : Byte) : (s.setOpcode v).ctrlShift1 = s.ctrlShift1 := rfl
@[simp] theorem setOpcode_systemClock (s : State) (v : Byte) : (s.setOpcode v).systemClock = s.systemClock := rfl
@[simp] theorem setOpcode_audioTime (s : State) (v : Byte) : (s.setOpcode v).audioTime = s.audioTime := rfl
@[simp] theorem setOpcode_sampleReady (s : State) (v : Byte) : (s.setOpcode v).sampleReady = s.sampleReady := rfl
@[simp] theorem setOpcode_ppu (s : State) (v : Byte) : (s.setOpcode v).ppu = s.ppu := rfl
@[simp] theorem setOpcode_apu (s : State) (v : Byte) : (s.setOpcode v).apu = s.apu := rfl
@[simp] theorem setOpcode_cart (s : State) (v : Byte) : (s.setOpcode v).cart = s.cart := rfl
@[simp] theorem setOpcode_config (s : State) (v : Byte) : (s.setOpcode v).config = s.config := rfl
@[simp] theorem setOpcode_illegalTrace (s : State) (v : Byte) : (s.setOpcode v).illegalTrace = s.illegalTrace := rfl
@[simp] theorem setOpcode_freeCount (s : State) (v : Byte) : (s.setOpcode v).freeCount = s.freeCount := rfl

@[simp] theorem retire_cpu (s : State) (n k : Nat) :
    (s.retire n k).cpu = { s.cpu with pc := s.cpu.pc + BitVec.ofNat 16 n, remainingCycles := k } := rfl
@[simp] theorem retire_ram (s : State) (n k : Nat) : (s.retire n k).ram = s.ram := rfl
@[simp] theorem retire_dma (s : State) (n k : Nat) : (s.retire n k).dma = s.dma := rfl
@[simp] theorem retire_controller0 (s : State) (n k : Nat) : (s.retire n k).controller0 = s.controller0 := rfl
@[simp] theorem retire_controller1 (s : State) (n k : Nat) : (s.retire n k).controller1 = s.controller1 := rfl
@[simp] theorem retire_ctrlShift0 (s : State) (n k : Nat) : (s.retire n k).ctrlShift0 = s.ctrlShift0 := rfl
@[simp] theorem retire_ctrlShift1 (s : State) (n k : Nat) : (s.retire n k).ctrlShift1 = s.ctrlShift1 := rfl
@[simp] theorem retire_systemClock (s : State) (n k : Nat) : (s.retire n k).systemClock = s.systemClock := rfl
@[simp] theorem retire_audioTime (s : State) (n k : Nat) : (s.retire n k).audioTime = s.audioTime := rfl
@[simp] theorem retire_sampleReady (s : State) (n k : Nat) : (s.retire n k).sampleReady = s.sampleReady := rfl
@[simp] theorem retire_ppu (s : State) (n k : Nat) : (s.retire n k).ppu = s.ppu := rfl
@[simp] theorem retire_apu (s : State) (n k : Nat) : (s.retire n k).apu = s.apu := rfl
@[simp] theorem retire_cart (s : State) (n k : Nat) : (s.retire n k).cart = s.cart := rfl
@[simp] theorem retire_config (s : State) (n k : Nat) : (s.retire n k).config = s.config := rfl
@[simp] theorem retire_illegalTrace (s : State) (n k : Nat) : (s.retire n k).illegalTrace = s.illegalTrace := rfl
@[simp] theorem retire_freeCount (s : State) (n k : Nat) : (s.retire n k).freeCount = s.freeCount := rfl

@[simp] theorem countCycle_cpu (s : State) :
    (countCycle s).cpu = { s.cpu with remainingCycles := s.cpu.remainingCycles - 1, totalCycleCount := s.cpu.totalCycleCount + 1 } := rfl
@[simp] theorem countCycle_ram (s : State) : (countCycle s).ram = s.ram := rfl
@[simp] theorem countCycle_dma (s : State) : (countCycle s).dma = s.dma := rfl
@[simp] theorem countCycle_controller0 (s : State) : (countCycle s).controller0 = s.controller0 := rfl
@[simp] theorem countCycle_controller1 (s : State) : (countCycle s).controller1 = s.controller1 := rfl
@[simp] theorem countCycle_ctrlShift0 (s : State) : (countCycle s).ctrlShift0 = s.ctrlShift0 := rfl
@[simp] theorem countCycle_ctrlShift1 (s : State) : (countCycle s).ctrlShift1 = s.ctrlShift1 := rfl
@[simp] theorem countCycle_systemClock (s : State) : (countCycle s).systemClock = s.systemClock := rfl
@[simp] theorem countCycle_audioTime (s : State) : (countCycle s).audioTime = s.audioTime := rfl
@[simp] theorem countCycle_sampleReady (s : State) : (countCycle s).sampleReady = s.sampleReady := rfl
@[simp] theorem countCycle_ppu (s : State) : (countCycle s).ppu = s.ppu := rfl
@[simp] theorem countCycle_apu (s : State) : (countCycle s).apu = s.apu := rfl
@[simp] theorem countCycle_cart (s : State) : (countCycle s).cart = s.cart := rfl
@[simp] theorem countCycle_config (s : State) : (countCycle s).config = s.config := rfl
@[simp] theorem countCycle_illegalTrace (s : State) : (countCycle s).illegalTrace = s.illegalTrace := rfl
@[simp] theorem countCycle_freeCount (s : State) : (countCycle s).freeCount = s.freeCount := rfl

@[simp] theorem freshTemp_cpu (s : State) :
    (freshTemp s).cpu = { s.cpu with temp := Config.freeTemp s.freeCount } := rfl
@[simp] theorem freshTemp_ram (s : State) : (freshTemp s).ram = s.ram := rfl
@[simp] theorem freshTemp_dma (s : State) : (freshTemp s).dma = s.dma := rfl
@[simp] theorem freshTemp_controller0 (s : State) : (freshTemp s).controller0 = s.controller0 := rfl
@[simp] theorem freshTemp_controller1 (s : State) : (freshTemp s).controller1 = s.controller1 := rfl
@[simp] theorem freshTemp_ctrlShift0 (s : State) : (freshTemp s).ctrlShift0 = s.ctrlShift0 := rfl
@[simp] theorem freshTemp_ctrlShift1 (s : State) : (freshTemp s).ctrlShift1 = s.ctrlShift1 := rfl
@[simp] theorem freshTemp_systemClock (s : State) : (freshTemp s).systemClock = s.systemClock := rfl
@[simp] theorem freshTemp_audioTime (s : State) : (freshTemp s).audioTime = s.audioTime := rfl
@[simp] theorem freshTemp_sampleReady (s : State) : (freshTemp s).sampleReady = s.sampleReady := rfl
@[simp] theorem freshTemp_ppu (s : State) : (freshTemp s).ppu = s.ppu := rfl
@[simp] theorem freshTemp_apu (s : State) : (freshTemp s).apu = s.apu := rfl
@[simp] theorem freshTemp_cart (s : State) : (freshTemp s).cart = s.cart := rfl
@[simp] theorem freshTemp_config (s : State) : (freshTemp s).config = s.config := rfl
@[simp] theorem freshTemp_illegalTrace (s : State) : (freshTemp s).illegalTrace = s.illegalTrace := rfl
@[simp] theorem freshTemp_freeCount (s : State) : (freshTemp s).freeCount = s.freeCount + 1 := rfl

@[simp] theorem endTick_cpu (s : State) : (endTick s).cpu = s.cpu := rfl
@[simp] theorem endTick_ram (s : State) : (endTick s).ram = s.ram := rfl
@[simp] theorem endTick_dma (s : State) : (endTick s).dma = s.dma := rfl
@[simp] theorem endTick_controller0 (s : State) : (endTick s).controller0 = s.controller0 := rfl
@[simp] theorem endTick_controller1 (s : State) : (endTick s).controller1 = s.controller1 := rfl
@[simp] theorem endTick_ctrlShift0 (s : State) : (endTick s).ctrlShift0 = s.ctrlShift0 := rfl
@[simp] theorem endTick_ctrlShift1 (s : State) : (endTick s).ctrlShift1 = s.ctrlShift1 := rfl
@[simp] theorem endTick_systemClock (s : State) : (endTick s).systemClock = s.systemClock + 1 := rfl
@[simp] theorem endTick_audioTime (s : State) : (endTick s).audioTime = (audioPace s).audioTime := rfl
@[simp] theorem endTick_sampleReady (s : State) : (endTick s).sampleReady = paceDue s := rfl
@[simp] theorem endTick_ppu (s : State) : (endTick s).ppu = s.ppu := rfl
@[simp] theorem endTick_apu (s : State) : (endTick s).apu = (audioPace s).apu := rfl
@[simp] theorem endTick_cart (s : State) : (endTick s).cart = s.cart := rfl
@[simp] theorem endTick_config (s : State) : (endTick s).config = s.config := rfl
@[simp] theorem endTick_illegalTrace (s : State) : (endTick s).illegalTrace = s.illegalTrace := rfl
@[simp] theorem endTick_freeCount (s : State) : (endTick s).freeCount = s.freeCount := rfl

@[simp] theorem devicesTick_cpu (s : State) : (devicesTick s).cpu = s.cpu := rfl
@[simp] theorem devicesTick_ram (s : State) : (devicesTick s).ram = s.ram := rfl
@[simp] theorem devicesTick_dma (s : State) : (devicesTick s).dma = s.dma := rfl
@[simp] theorem devicesTick_controller0 (s : State) : (devicesTick s).controller0 = s.controller0 := rfl
@[simp] theorem devicesTick_controller1 (s : State) : (devicesTick s).controller1 = s.controller1 := rfl
@[simp] theorem devicesTick_ctrlShift0 (s : State) : (devicesTick s).ctrlShift0 = s.ctrlShift0 := rfl
@[simp] theorem devicesTick_ctrlShift1 (s : State) : (devicesTick s).ctrlShift1 = s.ctrlShift1 := rfl
@[simp] theorem devicesTick_systemClock (s : State) : (devicesTick s).systemClock = s.systemClock := rfl
@[simp] theorem devicesTick_audioTime (s : State) : (devicesTick s).audioTime = s.audioTime := rfl
@[simp] theorem devicesTick_sampleReady (s : State) : (devicesTick s).sampleReady = s.sampleReady := rfl
@[simp] theorem devicesTick_ppu (s : State) : (devicesTick s).ppu = (ppuTick s.ppu s.cart).1 := rfl
@[simp] theorem devicesTick_apu (s : State) : (devicesTick s).apu = s.apu.tick := rfl
@[simp] theorem devicesTick_cart (s : State) : (devicesTick s).cart = (ppuTick s.ppu s.cart).2 := rfl
@[simp] theorem devicesTick_config (s : State) : (devicesTick s).config = s.config := rfl
@[simp] theorem devicesTick_illegalTrace (s : State) : (devicesTick s).illegalTrace = s.illegalTrace := rfl
@[simp] theorem devicesTick_freeCount (s : State) : (devicesTick s).freeCount = s.freeCount := rfl

end Sys2Proof.Machine
end

