-- ==== Sys2Proof/Laws/Ops.lean ====
section
/-! SUPPORT. One lemma per shared operation that says everything it can do: the bus below and above $6000, what a read
and a write may change, the stack, the vectors, an entry and a return. -/

namespace Sys2Proof.Machine

/-! ## Words and bytes -/

@[simp] theorem loByte_join (hi lo : Byte) : loByte (join hi lo) = lo := by
  apply BitVec.eq_of_getLsbD_eq
  intro i hi'
  simp only [loByte, join, BitVec.getLsbD_extractLsb', BitVec.getLsbD_append]
  simp [hi']

@[simp] theorem hiByte_join (hi lo : Byte) : hiByte (join hi lo) = hi := by
  apply BitVec.eq_of_getLsbD_eq
  intro i hi'
  simp only [hiByte, join, BitVec.getLsbD_extractLsb', BitVec.getLsbD_append]
  simp [hi']

@[simp] theorem join_hiByte_loByte (w : Word) : join (hiByte w) (loByte w) = w := by
  apply BitVec.eq_of_getLsbD_eq
  intro i hi
  simp only [join, hiByte, loByte, BitVec.getLsbD_append, BitVec.getLsbD_extractLsb']
  by_cases h : i < 8
  · simp [h]
  · have : i - 8 < 8 := by omega
    simp [h, this, show 8 + (i - 8) = i by omega]

theorem zext_toNat (b : Byte) : (zext b).toNat = b.toNat := by
  simp only [zext, BitVec.toNat_setWidth]
  exact Nat.mod_eq_of_lt (by have := b.isLt; omega)

theorem zext_low (b : Byte) : zext b ≤ 0x1FFF := by
  have := b.isLt
  rw [BitVec.le_def, zext_toNat]
  show b.toNat ≤ 8191
  omega

theorem ram_index (a : Word) : (a &&& 0x07FF).toNat = a.toNat % 2048 := by
  rw [BitVec.toNat_and]
  exact Nat.and_two_pow_sub_one_eq_mod a.toNat 11

theorem zext_index (b : Byte) : (zext b &&& 0x07FF).toNat = b.toNat := by
  have := b.isLt
  rw [ram_index, zext_toNat]
  omega

theorem stackAddr_toNat (sp : Byte) : (stackAddr sp).toNat = 256 + sp.toNat := by
  have := sp.isLt
  simp only [stackAddr, BitVec.toNat_add, zext_toNat]
  show (256 + sp.toNat) % 65536 = _
  omega

theorem stackAddr_low (sp : Byte) : stackAddr sp ≤ 0x1FFF := by
  have := sp.isLt
  rw [BitVec.le_def, stackAddr_toNat]
  show 256 + sp.toNat ≤ 8191
  omega

theorem stackAddr_index (sp : Byte) : (stackAddr sp &&& 0x07FF).toNat = 256 + sp.toNat := by
  have := sp.isLt
  rw [ram_index, stackAddr_toNat]
  omega

/-! ## The cartridge's side of the bus -/

/-- No mapper handles an address below $6000 (20_memory R93). -/
theorem cpuMapRead_low (c : Cart) (r : Bool) {a : Word} (h : a < 0x6000) : c.cpuMapRead r a = .notHandled := by
  have h8 : ¬ (0x8000 : Word) ≤ a := by simp only [BitVec.le_def, BitVec.lt_def] at *; simp at *; omega
  have h6 : ¬ (0x6000 : Word) ≤ a := by simp only [BitVec.le_def, BitVec.lt_def] at *; simp at *; omega
  cases hm : c.mapper <;> simp only [Cart.cpuMapRead, hm, h8, h6, if_false, false_and]

theorem cpuMapWrite_low (c : Cart) (r : Bool) {a : Word} (v : Byte) (h : a < 0x6000) : c.cpuMapWrite r a v = none := by
  have h8 : ¬ (0x8000 : Word) ≤ a := by simp only [BitVec.le_def, BitVec.lt_def] at *; simp at *; omega
  have h6 : ¬ (0x6000 : Word) ≤ a := by simp only [BitVec.le_def, BitVec.lt_def] at *; simp at *; omega
  cases hm : c.mapper <;> simp only [Cart.cpuMapWrite, hm, h8, h6, if_false, false_and]

/-- Every mapper answers a read at $8000 and above with a PRG offset (20_memory R93). -/
theorem cpuMapRead_high (c : Cart) (r : Bool) {a : Word} (h : 0x8000 ≤ a) : ∃ off, c.cpuMapRead r a = .prg off := by
  cases hm : c.mapper <;> simp only [Cart.cpuMapRead, hm, h, if_true] <;> exact ⟨_, rfl⟩

/-- A write the mapper handles changes nothing of the cartridge but the mapper's own state. -/
theorem cpuMapWrite_frame {c c' : Cart} {r : Bool} {a : Word} {v : Byte} (h : c.cpuMapWrite r a v = some c') :
    c' = { c with mapper := c'.mapper } := by
  revert h
  cases hm : c.mapper <;> simp only [Cart.cpuMapWrite, hm]
  · simp
  · split
    · simp only [Option.some.injEq]; rintro rfl; rfl
    · split
      · simp only [Option.some.injEq]; rintro rfl; rfl
      · simp
  · split
    · simp only [Option.some.injEq]; rintro rfl; rfl
    · simp
  · split
    · simp only [Option.some.injEq]; rintro rfl; rfl
    · split
      · simp only [Option.some.injEq]; rintro rfl; rfl
      · simp

/-! ## Reads -/

theorem memRead_ram (s : State) {a : Word} (h : a ≤ 0x1FFF) : memRead s a = (s.ram.read (a &&& 0x07FF).toNat, s) := by
  have h6 : a < 0x6000 := by simp only [BitVec.le_def, BitVec.lt_def] at *; simp at *; omega
  simp only [memRead, cpuMapRead_low _ _ h6, busRead, h, if_true]

theorem memRead_zeroPage (s : State) (b : Byte) : memRead s (zext b) = (s.ram.read b.toNat, s) := by
  rw [memRead_ram s (zext_low b), zext_index]

/-- A read at $8000 and above is a byte of PRG and changes nothing. -/
theorem memRead_high (s : State) {a : Word} (h : 0x8000 ≤ a) :
    ∃ off, s.cart.cpuMapRead s.config.m4PrgRam a = .prg off ∧ memRead s a = (s.cart.prg.read off, s) := by
  obtain ⟨off, ho⟩ := cpuMapRead_high s.cart s.config.m4PrgRam h
  exact ⟨off, ho, by simp [memRead, ho]⟩

/-- What a PPU register read may change (62_ppu R393). -/
theorem regRead_frame (p : Ppu) (c : Cart) (low5 : BitVec 5) (r : BitVec 3) :
    (p.regRead c low5 r).2 =
      { p with
        nmiLatch := (p.regRead c low5 r).2.nmiLatch
        status := (p.regRead c low5 r).2.status
        addressLatch := (p.regRead c low5 r).2.addressLatch
        dataBuffer := (p.regRead c low5 r).2.dataBuffer
        v := (p.regRead c low5 r).2.v } := by
  unfold Ppu.regRead
  split <;> rfl

/-- What a bus read may change: PPU state and the two controller shifters, and nothing else (20_memory R95). -/
theorem memRead_frame (s : State) (a : Word) :
    (memRead s a).2 =
      { s with
        ppu := (memRead s a).2.ppu
        ctrlShift0 := (memRead s a).2.ctrlShift0
        ctrlShift1 := (memRead s a).2.ctrlShift1 } := by
  unfold memRead
  split
  · rfl
  · rfl
  · unfold busRead
    split
    · rfl
    · split
      · rfl
      · split
        · unfold controllerRead; split <;> rfl
        · rfl

/-- A read anywhere else changes nothing. -/
theorem memRead_state (s : State) {a : Word} (h : ¬ SideEffect a) : (memRead s a).2 = s := by
  unfold memRead
  split
  · rfl
  · rfl
  · unfold busRead
    split
    · rfl
    · split
      · rename_i h1 h2
        have h0 : (0x2000 : Word) ≤ a := by simp only [BitVec.le_def] at *; simp at *; omega
        have h2' : field a 0 3 ≠ (2 : BitVec 3) := fun e => h (.inl ⟨⟨h0, h2⟩, .inl e⟩)
        have h7' : field a 0 3 ≠ (7 : BitVec 3) := fun e => h (.inl ⟨⟨h0, h2⟩, .inr e⟩)
        generalize hr : (field a 0 3 : BitVec 3) = r at *
        simp only [ppuRegRead, Ppu.regRead]
        split
        · exact absurd (BitVec.eq_of_toNat_eq (by assumption)) h2'
        · rfl
        · exact absurd (BitVec.eq_of_toNat_eq (by assumption)) h7'
        · rfl
      · split
        · rename_i h1 h2 h3
          exact absurd (Or.inr h3) h
        · rfl

/-- The CPU's registers take no part in a bus read. -/
theorem memRead_withCpu (s : State) (c : Cpu) (a : Word) :
    memRead { s with cpu := c } a = ((memRead s a).1, { (memRead s a).2 with cpu := c }) := by
  unfold memRead
  dsimp only
  split
  · rfl
  · rfl
  · unfold busRead
    split
    · rfl
    · split
      · rfl
      · split
        · unfold controllerRead; split <;> rfl
        · rfl

@[simp] theorem memRead_cpu (s : State) (a : Word) : (memRead s a).2.cpu = s.cpu := by rw [memRead_frame]

theorem peek_withCpu (s : State) (c : Cpu) (a : Word) : peek { s with cpu := c } a = peek s a := by
  unfold peek; rw [memRead_withCpu]

/-! ## Writes -/

theorem memWrite_ram (s : State) {a : Word} (v : Byte) (h : a ≤ 0x1FFF) :
    memWrite s a v = { s with ram := s.ram.write (a &&& 0x07FF).toNat v } := by
  have h6 : a < 0x6000 := by simp only [BitVec.le_def, BitVec.lt_def] at *; simp at *; omega
  simp only [memWrite, cpuMapWrite_low _ _ _ h6, busWrite, h, if_true]

/-- What a bus write may change. -/
theorem memWrite_frame (s : State) (a : Word) (v : Byte) :
    memWrite s a v =
      { s with
        ram := (memWrite s a v).ram
        dma := (memWrite s a v).dma
        ctrlShift0 := (memWrite s a v).ctrlShift0
        ctrlShift1 := (memWrite s a v).ctrlShift1
        ppu := (memWrite s a v).ppu
        apu := (memWrite s a v).apu
        cart := (memWrite s a v).cart } := by
  unfold memWrite
  split
  · rfl
  · unfold busWrite
    split
    · rfl
    · split
      · rfl
      · split
        · rfl
        · split
          · rfl
          · split
            · unfold controllerLatch; split <;> rfl
            · rfl

/-- The CPU's registers take no part in a bus write. -/
theorem memWrite_withCpu (s : State) (c : Cpu) (a : Word) (v : Byte) :
    memWrite { s with cpu := c } a v = { memWrite s a v with cpu := c } := by
  unfold memWrite
  dsimp only
  split
  · rfl
  · unfold busWrite
    split
    · rfl
    · split
      · rfl
      · split
        · rfl
        · split
          · rfl
          · split
            · unfold controllerLatch; split <;> rfl
            · rfl

@[simp] theorem memWrite_cpu (s : State) (a : Word) (v : Byte) : (memWrite s a v).cpu = s.cpu := by rw [memWrite_frame]

/-! ## The stack -/

/-- `Push` writes one cell of page 1 and decrements S; nothing else changes (10_state R24). -/
theorem push_eq (s : State) (v : Byte) :
    push s v = ({ s with ram := s.ram.write (256 + s.cpu.sp.toNat) v } : State).setSp (s.cpu.sp - 1) := by
  unfold push
  rw [memWrite_ram s v (stackAddr_low _), stackAddr_index]

/-- `Pop` increments S and reads one cell of page 1. -/
theorem pop_eq (s : State) :
    pop s = (s.ram.read (256 + (s.cpu.sp + 1).toNat), s.setSp (s.cpu.sp + 1)) := by
  unfold pop
  rw [memRead_ram _ (stackAddr_low _), stackAddr_index]
  rfl

/-! ## Vectors, entry, return -/

/-- A vector fetch at $8000 and above only writes PC. -/
theorem loadPc_eq (s : State) {a : Word} (h : 0x8000 ≤ a) (h' : 0x8000 ≤ a + 1) :
    loadPc s a = s.setPc (join (peek s (a + 1)) (peek s a)) := by
  obtain ⟨_, -, h1⟩ := memRead_high s h
  obtain ⟨_, -, h2⟩ := memRead_high s h'
  simp only [loadPc, peek, h1, h2]

/-- What a read at $8000 and above answers depends on the cartridge and the parameters alone. -/
theorem peek_high_congr {s t : State} {a : Word} (h : 0x8000 ≤ a) (hc : t.cart = s.cart) (hm : t.config = s.config) :
    peek t a = peek s a := by
  obtain ⟨o, h1, h2⟩ := memRead_high s h
  obtain ⟨o', h1', h2'⟩ := memRead_high t h
  rw [hc, hm, h1] at h1'
  cases h1'
  simp [peek, h2, h2', hc]

/-- The four effects of an entry (60_exceptions R310): three stack cells, S, P and PC. -/
theorem takeException_eq (s : State) (ret : Word) (brk : Bool) {vec : Word} (h : 0x8000 ≤ vec) (h' : 0x8000 ≤ vec + 1) :
    takeException s ret brk vec =
      { s with
        ram := ((s.ram.write (256 + s.cpu.sp.toNat) (hiByte ret)).write (256 + (s.cpu.sp - 1).toNat) (loByte ret)).write
          (256 + (s.cpu.sp - 1 - 1).toNat) (entryStatus brk s.cpu.p)
        cpu := { s.cpu with
          sp := s.cpu.sp - 1 - 1 - 1
          p := setFlag (entryStatus brk s.cpu.p) .B false
          pc := join (peek s (vec + 1)) (peek s vec) } } := by
  unfold takeException
  dsimp only
  rw [loadPc_eq _ h h']
  simp only [push_eq]
  have e : ∀ (r : Memory) (c : Cpu) (a : Word), 0x8000 ≤ a → peek { s with ram := r, cpu := c } a = peek s a :=
    fun r c a ha => peek_high_congr ha rfl rfl
  have e1 := e (((s.ram.write (256 + s.cpu.sp.toNat) (hiByte ret)).write (256 + (s.cpu.sp - 1).toNat) (loByte ret)).write
          (256 + (s.cpu.sp - 1 - 1).toNat) (entryStatus brk s.cpu.p))
          { s.cpu with sp := s.cpu.sp - 1 - 1 - 1, p := setFlag (entryStatus brk s.cpu.p) .B false }
  rw [← e1 _ h, ← e1 _ h']
  rfl

/-- The three pops of a return (45 R280). -/
theorem returnFromException_eq (s : State) :
    returnFromException s =
      { s with cpu := { s.cpu with
          sp := s.cpu.sp + 1 + 1 + 1
          p := pulledStatus (s.ram.read (256 + (s.cpu.sp + 1).toNat))
          pc := join (s.ram.read (256 + (s.cpu.sp + 1 + 1 + 1).toNat)) (s.ram.read (256 + (s.cpu.sp + 1 + 1).toNat)) } } := by
  simp only [returnFromException, pop_eq]
  rfl

end Sys2Proof.Machine
end

