-- ==== Sys2Proof/Laws/Operands.lean ====
section
/-! SUPPORT. One lemma per operand form: an addressing mode makes no change but to the latch `absolute_addr`, and an
operand read, a store and a read-modify-write are the bus accesses of their rule and nothing else. -/

namespace Sys2Proof.Machine

/-- A zero-page pointer is two bytes of RAM; reading it changes nothing (30_encoding R132, R133). -/
theorem zeroPagePointer_eq (s : State) (p : Byte) :
    zeroPagePointer s p = (join (s.ram.read (p + 1).toNat) (s.ram.read p.toNat), s) := by
  simp only [zeroPagePointer, memRead_zeroPage]

@[simp] theorem modeAddr_state (m : Addr) (s : State) : (modeAddr m s).state = s := by
  cases m <;> simp only [modeAddr, zeroPagePointer_eq]

theorem effAddr_state (m : Addr) (s : State) : (effAddr m s).state = s.setAbsoluteAddr (effAddr m s).ea := by
  simp only [effAddr, modeAddr_state]

/-- The state after an operand was read from memory: what the one bus read leaves, with the two latches. -/
theorem readSrc_mem (m : Addr) (s : State) :
    (readSrc (.mem m) s).value = peek s (effAddr m s).ea ∧
    (readSrc (.mem m) s).cross = (effAddr m s).cross ∧
    (readSrc (.mem m) s).state =
      { (memRead s (effAddr m s).ea).2 with
        cpu := { s.cpu with absoluteAddr := (effAddr m s).ea, inputAlu := peek s (effAddr m s).ea } } := by
  simp only [readSrc, effAddr_state, State.setAbsoluteAddr, memRead_withCpu, State.setInputAlu]
  exact ⟨rfl, trivial, rfl⟩

/-- Storing at an operand is one bus write (40 R170). -/
theorem storeTo_eq (m : Addr) (v : Byte) (s : State) :
    storeTo m v s =
      { memWrite s (effAddr m s).ea v with cpu := { s.cpu with absoluteAddr := (effAddr m s).ea } } := by
  simp only [storeTo, effAddr_state, State.setAbsoluteAddr, memWrite_withCpu]

/-- A read-modify-write is one bus read and then one bus write of one address (43 R230). -/
theorem modifyMem_eq (f : Byte → Byte → Byte × Byte) (m : Addr) (s : State) :
    modifyMem f m s =
      { memWrite (memRead s (effAddr m s).ea).2 (effAddr m s).ea (f (peek s (effAddr m s).ea) s.cpu.p).1 with
        cpu := { s.cpu with
          absoluteAddr := (effAddr m s).ea
          inputAlu := peek s (effAddr m s).ea
          p := (f (peek s (effAddr m s).ea) s.cpu.p).2 } } := by
  simp only [modifyMem, effAddr_state, State.setAbsoluteAddr, memRead_withCpu, State.setInputAlu, State.setP,
    memWrite_withCpu]
  rfl

end Sys2Proof.Machine
end

