-- ==== Sys2Proof/Laws/Exec.lean ====
section
/-! SUPPORT. What executing an instruction can do, said once for every instruction: it reads the bus, writes the bus,
writes CPU registers and records illegal opcodes, and nothing else. A property that those four keep is kept by every
instruction. -/

namespace Sys2Proof.Machine

/-- A relation between states that holds across anything an instruction can do. -/
structure InstrClosed (R : State → State → Prop) : Prop where
  refl : ∀ s, R s s
  trans : ∀ {s t u}, R s t → R t u → R s u
  read : ∀ s a, R s (memRead s a).2
  write : ∀ s a v, R s (memWrite s a v)
  cpu : ∀ s c, R s { s with cpu := c }

namespace InstrClosed

variable {R : State → State → Prop} (h : InstrClosed R)
include h

theorem thenCpu {s t : State} (ht : R s t) (c : Cpu) : R s { t with cpu := c } := h.trans ht (h.cpu t c)

theorem retire {s t : State} (ht : R s t) (n c : Nat) : R s (t.retire n c) := h.thenCpu ht _

theorem push {s t : State} (ht : R s t) (v : Byte) : R s (push t v) := h.thenCpu (h.trans ht (h.write t _ v)) _

theorem pop {s t : State} (ht : R s t) : R s (pop t).2 := h.trans (h.thenCpu ht _) (h.read _ _)

theorem loadPc {s t : State} (ht : R s t) (a : Word) : R s (loadPc t a) :=
  h.thenCpu (h.trans (h.trans ht (h.read _ _)) (h.read _ _)) _

theorem takeException {s t : State} (ht : R s t) (ret : Word) (brk : Bool) (vec : Word) :
    R s (takeException t ret brk vec) :=
  h.loadPc (h.thenCpu (h.push (h.thenCpu (h.push (h.push ht _) _) _) _) _) _

theorem returnFromException {s t : State} (ht : R s t) : R s (returnFromException t) :=
  h.thenCpu (h.pop (h.pop (h.thenCpu (h.pop ht) _))) _

theorem readSrc (o : Src) (s : State) : R s (readSrc o s).state := by
  cases o with
  | imm b1 => exact h.cpu s _
  | mem m => rw [(readSrc_mem m s).2.2]; exact h.thenCpu (h.read s _) _

theorem store (m : Addr) (v : Byte) (s : State) : R s (store m v s) := by
  unfold Machine.store; rw [storeTo_eq]; exact h.retire (h.thenCpu (h.write s _ v) _) _ _

theorem modifyMem (f : Byte → Byte → Byte × Byte) (m : Addr) (s : State) : R s (modifyMem f m s) := by
  rw [modifyMem_eq]; exact h.thenCpu (h.trans (h.read s _) (h.write _ _ _)) _

theorem modifyTgt (f : Byte → Byte → Byte × Byte) (o : Tgt) (s : State) : R s (modifyTgt f o s) := by
  cases o with
  | acc => exact h.cpu s _
  | mem m => exact h.modifyMem f m s

theorem jumpTarget (o : JmpTgt) (s : State) : R s (jumpTarget o s).2 := by
  cases o with
  | abs target => exact h.refl s
  | ind ptr => exact h.trans (h.read s _) (h.read _ _)

/-- Every instruction keeps the relation, up to the record of an illegal opcode. -/
theorem exec {i : Instr} {s t : State} (he : exec i s = .next t) (hill : ∀ s l, R s { s with illegalTrace := l }) :
    R s t := by
  cases i
  case lda o | ldx o | ldy o | ora o | and o | eor o | adc o | sbc o | cmp o | cpx o | cpy o =>
    cases he; exact h.retire (h.thenCpu (h.readSrc o s) _) _ _
  case bit m => cases he; exact h.retire (h.thenCpu (h.readSrc (.mem m) s) _) _ _
  case sta m | stx m | sty m => cases he; exact h.store m _ s
  case asl o | lsr o | rol o | ror o => cases he; exact h.retire (h.modifyTgt _ o s) _ _
  case inc m | dec m => cases he; exact h.retire (h.modifyMem _ m s) _ _
  case pha | php => cases he; exact h.retire (h.push (h.refl s) _) _ _
  case pla | plp => cases he; exact h.retire (h.thenCpu (h.pop (h.refl s)) _) _ _
  case jmp o => cases he; exact h.thenCpu (h.jumpTarget o s) _
  case jsr target => cases he; exact h.thenCpu (h.push (h.push (h.cpu s _) _) _) _
  case rts => cases he; exact h.thenCpu (h.pop (h.pop (h.refl s))) _
  case brk => cases he; exact h.thenCpu (h.takeException (h.refl s) _ _ _) _
  case rti => cases he; exact h.thenCpu (h.returnFromException (h.refl s)) _
  case ill op b1 =>
    simp only [Machine.exec, execIll] at he
    split at he
    · cases he; exact h.retire (hill s _) _ _
    · cases he
  all_goals cases he; exact h.cpu s _

end InstrClosed

/-- An instruction stops in one case only: an illegal opcode under the policy `refuse` (45 R281, 60_exceptions R304). -/
theorem exec_next_or_refuses (i : Instr) (s : State) :
    (∃ t, exec i s = .next t) ∨
    (∃ op b1, i = .ill op b1 ∧ s.config.illegalPolicy = .refuse ∧ exec i s = .refused (.illegalOpcode s.cpu.pc op)) := by
  cases i
  case ill op b1 =>
    cases hp : s.config.illegalPolicy
    · exact .inl ⟨_, show execIll op b1 s = _ by rw [execIll, hp]⟩
    · exact .inr ⟨op, b1, rfl, rfl, by simp only [exec, execIll, hp]⟩
  all_goals exact .inl ⟨_, rfl⟩

end Sys2Proof.Machine
end

