-- ==== Sys2Proof/Laws/Ppu.lean ====
section
/-! SUPPORT. What the phases of a PPU dot keep, said once for every phase, and what a dot does to the NMI latch, the
counters and the framebuffer. -/

namespace Sys2Proof.Machine

/-- What no phase of a dot changes: the registers the CPU writes (but `v`), the PPU's memories (but the framebuffer),
the scanline and the frame flags. -/
structure Ppu.DotKeeps (p q : Ppu) : Prop where
  ctrl : q.ctrl = p.ctrl
  mask : q.mask = p.mask
  t : q.t = p.t
  fineX : q.fineX = p.fineX
  addressLatch : q.addressLatch = p.addressLatch
  dataBuffer : q.dataBuffer = p.dataBuffer
  oam : q.oam = p.oam
  oamAddr : q.oamAddr = p.oamAddr
  nametable : q.nametable = p.nametable
  pattern : q.pattern = p.pattern
  palette : q.palette = p.palette
  scanline : q.scanline = p.scanline
  oddFrame : q.oddFrame = p.oddFrame
  frameComplete : q.frameComplete = p.frameComplete

theorem Ppu.DotKeeps.refl (p : Ppu) : Ppu.DotKeeps p p := by constructor <;> rfl

theorem Ppu.DotKeeps.trans {p q r : Ppu} (h : Ppu.DotKeeps p q) (k : Ppu.DotKeeps q r) : Ppu.DotKeeps p r where
  ctrl := k.ctrl.trans h.ctrl
  mask := k.mask.trans h.mask
  t := k.t.trans h.t
  fineX := k.fineX.trans h.fineX
  addressLatch := k.addressLatch.trans h.addressLatch
  dataBuffer := k.dataBuffer.trans h.dataBuffer
  oam := k.oam.trans h.oam
  oamAddr := k.oamAddr.trans h.oamAddr
  nametable := k.nametable.trans h.nametable
  pattern := k.pattern.trans h.pattern
  palette := k.palette.trans h.palette
  scanline := k.scanline.trans h.scanline
  oddFrame := k.oddFrame.trans h.oddFrame
  frameComplete := k.frameComplete.trans h.frameComplete

/-- Whether background or sprites are shown, across anything that keeps PPUMASK. -/
theorem Ppu.DotKeeps.rendering {p q : Ppu} (h : Ppu.DotKeeps p q) : q.rendering = p.rendering := by
  simp only [Ppu.rendering, Ppu.showBackground, Ppu.showSprites, h.mask]

/-- The PPU bus answers as before across a phase (62_ppu R386). -/
theorem Ppu.DotKeeps.read {p q : Ppu} (h : Ppu.DotKeeps p q) (c : Cart) (a : Word) : q.read c a = p.read c a := by
  have hg : q.greyscale = p.greyscale := by simp only [Ppu.greyscale, h.mask]
  simp only [Ppu.read, hg, h.nametable, h.palette]

/-- What the phases of a scanline keep beside: the NMI latch, the framebuffer, the last pixel's zero mark. -/
structure Ppu.LineKeeps (p q : Ppu) : Prop extends Ppu.DotKeeps p q where
  nmiLatch : q.nmiLatch = p.nmiLatch
  framebuffer : q.framebuffer = p.framebuffer
  zeroDrawing : q.zeroDrawing = p.zeroDrawing

theorem Ppu.LineKeeps.refl (p : Ppu) : Ppu.LineKeeps p p := ⟨.refl p, rfl, rfl, rfl⟩

theorem Ppu.LineKeeps.trans {p q r : Ppu} (h : Ppu.LineKeeps p q) (k : Ppu.LineKeeps q r) : Ppu.LineKeeps p r :=
  ⟨h.toDotKeeps.trans k.toDotKeeps, k.nmiLatch.trans h.nmiLatch, k.framebuffer.trans h.framebuffer,
    k.zeroDrawing.trans h.zeroDrawing⟩

theorem Ppu.skipDot_keeps (p : Ppu) : Ppu.LineKeeps p p.skipDot := by
  unfold Ppu.skipDot; split <;> exact ⟨⟨rfl, rfl, rfl, rfl, rfl, rfl, rfl, rfl, rfl, rfl, rfl, rfl, rfl, rfl⟩, rfl, rfl, rfl⟩

theorem Ppu.clearPhase_keeps (p : Ppu) : Ppu.LineKeeps p p.clearPhase := by
  unfold Ppu.clearPhase; split <;> exact ⟨⟨rfl, rfl, rfl, rfl, rfl, rfl, rfl, rfl, rfl, rfl, rfl, rfl, rfl, rfl⟩, rfl, rfl, rfl⟩

theorem Ppu.fetchSlot_keeps (p : Ppu) (c : Cart) : Ppu.LineKeeps p (p.fetchSlot c) := by
  unfold Ppu.fetchSlot Ppu.scrollX
  repeat' split
  all_goals exact ⟨⟨rfl, rfl, rfl, rfl, rfl, rfl, rfl, rfl, rfl, rfl, rfl, rfl, rfl, rfl⟩, rfl, rfl, rfl⟩

theorem Ppu.shift_keeps (p : Ppu) : Ppu.LineKeeps p p.shiftBackground.shiftSprites := by
  unfold Ppu.shiftSprites Ppu.shiftBackground
  split <;> split <;> exact ⟨⟨rfl, rfl, rfl, rfl, rfl, rfl, rfl, rfl, rfl, rfl, rfl, rfl, rfl, rfl⟩, rfl, rfl, rfl⟩

theorem Ppu.fetchPhase_keeps (p : Ppu) (c : Cart) : Ppu.LineKeeps p (p.fetchPhase c) := by
  unfold Ppu.fetchPhase
  split
  · exact (Ppu.shift_keeps p).trans (Ppu.fetchSlot_keeps _ c)
  · exact .refl p

theorem Ppu.addressPhase_keeps (p : Ppu) (c : Cart) : Ppu.LineKeeps p (p.addressPhase c) := by
  unfold Ppu.addressPhase Ppu.scrollY Ppu.transferX Ppu.transferY Ppu.fetchTileId Ppu.loadBgShifters
  repeat' split
  all_goals exact ⟨⟨rfl, rfl, rfl, rfl, rfl, rfl, rfl, rfl, rfl, rfl, rfl, rfl, rfl, rfl⟩, rfl, rfl, rfl⟩

theorem Ppu.spritePhase_keeps (p : Ppu) (c : Cart) : Ppu.LineKeeps p (p.spritePhase c) := by
  unfold Ppu.spritePhase Ppu.spriteEvaluate Ppu.spriteFetch
  repeat' split
  all_goals exact ⟨⟨rfl, rfl, rfl, rfl, rfl, rfl, rfl, rfl, rfl, rfl, rfl, rfl, rfl, rfl⟩, rfl, rfl, rfl⟩

theorem Ppu.linePhase_keeps (p : Ppu) (c : Cart) : Ppu.LineKeeps p (p.linePhase c) := by
  unfold Ppu.linePhase
  split
  · exact ((((Ppu.skipDot_keeps p).trans (Ppu.clearPhase_keeps _)).trans (Ppu.fetchPhase_keeps _ c)).trans
      (Ppu.addressPhase_keeps _ c)).trans (Ppu.spritePhase_keeps _ c)
  · exact .refl p

theorem Ppu.vblankPhase_keeps (p : Ppu) : Ppu.DotKeeps p p.vblankPhase := by
  unfold Ppu.vblankPhase; split <;> exact ⟨rfl, rfl, rfl, rfl, rfl, rfl, rfl, rfl, rfl, rfl, rfl, rfl, rfl, rfl⟩

theorem Ppu.pixelPhase_keeps (p : Ppu) (c : Cart) : Ppu.DotKeeps p (p.pixelPhase c) := by
  unfold Ppu.pixelPhase; split <;> exact ⟨rfl, rfl, rfl, rfl, rfl, rfl, rfl, rfl, rfl, rfl, rfl, rfl, rfl, rfl⟩

/-- A dot keeps the registers the CPU writes, the memories, the scanline and the frame flags. -/
theorem Ppu.dot_keeps (p : Ppu) (c : Cart) : Ppu.DotKeeps p (p.dot c) :=
  ((Ppu.linePhase_keeps p c).toDotKeeps.trans (Ppu.vblankPhase_keeps _)).trans (Ppu.pixelPhase_keeps _ c)

/-! ## The counters -/

theorem Ppu.fetchPhase_cycle (p : Ppu) (c : Cart) : (p.fetchPhase c).cycle = p.cycle := by
  unfold Ppu.fetchPhase Ppu.fetchSlot Ppu.scrollX Ppu.shiftSprites Ppu.shiftBackground
  repeat' split
  all_goals rfl

theorem Ppu.addressPhase_cycle (p : Ppu) (c : Cart) : (p.addressPhase c).cycle = p.cycle := by
  unfold Ppu.addressPhase Ppu.scrollY Ppu.transferX Ppu.transferY Ppu.fetchTileId Ppu.loadBgShifters
  repeat' split
  all_goals rfl

/-- On a fetched scanline the counter after the odd-frame skip; elsewhere nothing is skipped. -/
theorem Ppu.linePhase_cycle (p : Ppu) (c : Cart) : (p.linePhase c).cycle = p.skipDot.cycle := by
  unfold Ppu.linePhase
  split
  · have h1 : ∀ q : Ppu, (q.spritePhase c).cycle = q.cycle := fun q => by
      unfold Ppu.spritePhase; repeat' split
      all_goals rfl
    have h2 : p.skipDot.clearPhase.cycle = p.skipDot.cycle := by unfold Ppu.clearPhase; split <;> rfl
    rw [h1, Ppu.addressPhase_cycle, Ppu.fetchPhase_cycle, h2]
  · unfold Ppu.skipDot
    rw [if_neg]
    rintro ⟨h0, -⟩
    omega

theorem Ppu.dot_cycle (p : Ppu) (c : Cart) : (p.dot c).cycle = p.skipDot.cycle := by
  have h1 : ∀ q : Ppu, (q.pixelPhase c).cycle = q.cycle := fun q => by unfold Ppu.pixelPhase; split <;> rfl
  have h2 : ∀ q : Ppu, q.vblankPhase.cycle = q.cycle := fun q => by unfold Ppu.vblankPhase; split <;> rfl
  unfold Ppu.dot
  rw [h1, h2, Ppu.linePhase_cycle]

/-- The dot counter after the odd-frame skip (62_ppu R406). -/
theorem Ppu.skipDot_cycle (p : Ppu) :
    p.skipDot.cycle =
      if p.scanline = 0 ∧ p.cycle = 0 ∧ p.oddFrame = true ∧ p.rendering = true then 1 else p.cycle := by
  unfold Ppu.skipDot; split <;> rfl

/-! ## The NMI latch and the framebuffer -/

theorem Ppu.pixelPhase_nmiLatch (p : Ppu) (c : Cart) : (p.pixelPhase c).nmiLatch = p.nmiLatch := by
  unfold Ppu.pixelPhase; split <;> rfl

/-- A dot's NMI latch: raised at the start of vblank, else as before (62_ppu R424). -/
theorem Ppu.dot_nmiLatch (p : Ppu) (c : Cart) :
    (p.dot c).nmiLatch = if p.scanline = 241 ∧ p.cycle = 1 then p.nmiLatch || p.vblankNmi else p.nmiLatch := by
  have hk := Ppu.linePhase_keeps p c
  unfold Ppu.dot
  rw [Ppu.pixelPhase_nmiLatch]
  unfold Ppu.vblankPhase
  rw [hk.scanline, Ppu.linePhase_cycle, Ppu.skipDot_cycle]
  by_cases h : p.scanline = 241
  · simp only [h, true_and, show ¬ (241 : Int) = 0 by decide, false_and, if_false]
    split
    · simp only [Ppu.vblankStart, Ppu.vblankNmi, hk.nmiLatch, hk.ctrl]
    · exact hk.nmiLatch
  · simp only [h, false_and, if_false]; exact hk.nmiLatch

theorem Ppu.vblankPhase_framebuffer (p : Ppu) : p.vblankPhase.framebuffer = p.framebuffer := by
  unfold Ppu.vblankPhase; split <;> rfl

/-- A byte of the palette reads as a 6-bit index (62_ppu R391). -/
theorem Ppu.read_palette_lt (p : Ppu) (c : Cart) {a : Word} (h : 0x3F00 ≤ (a &&& 0x3FFF)) : (p.read c a).toNat < 64 := by
  have h1 : ¬ (a &&& 0x3FFF) ≤ 0x1FFF := by simp only [BitVec.le_def] at *; simp at *; omega
  have h2 : ¬ (a &&& 0x3FFF) ≤ 0x3EFF := by simp only [BitVec.le_def] at *; simp at *; omega
  simp only [Ppu.read, h1, h2, if_false]
  rw [BitVec.toNat_and]
  split
  · exact Nat.lt_of_le_of_lt Nat.and_le_right (by decide)
  · exact Nat.lt_of_le_of_lt Nat.and_le_right (by decide)

theorem paletteAddr_palette (px : BitVec 2 × BitVec 3) : 0x3F00 ≤ (paletteAddr px &&& 0x3FFF) := by
  obtain ⟨a, b⟩ := px
  revert a b
  decide

/-- A dot writes one cell of the framebuffer, with a 6-bit index, if it is a composed dot, else none (62_ppu R404,
R423). -/
theorem Ppu.dot_framebuffer (p : Ppu) (c : Cart) :
    ∃ v : Byte, v.toNat < 64 ∧ (p.dot c).framebuffer =
      if 0 ≤ p.scanline ∧ p.scanline ≤ 239 ∧ 1 ≤ p.skipDot.cycle ∧ p.skipDot.cycle ≤ 256 then
        p.framebuffer.write (p.scanline.toNat * 256 + (p.skipDot.cycle - 1)) v
      else p.framebuffer := by
  have hk := Ppu.linePhase_keeps p c
  have hv := Ppu.vblankPhase_keeps (p.linePhase c)
  have hc : (p.linePhase c).vblankPhase.cycle = p.skipDot.cycle := by
    rw [← Ppu.linePhase_cycle p c]; unfold Ppu.vblankPhase; split <;> rfl
  have hf : (p.linePhase c).vblankPhase.framebuffer = p.framebuffer := by
    rw [Ppu.vblankPhase_framebuffer, hk.framebuffer]
  have hs : (p.linePhase c).vblankPhase.scanline = p.scanline := hv.scanline.trans hk.scanline
  unfold Ppu.dot Ppu.pixelPhase
  generalize (p.linePhase c).vblankPhase = q at *
  rw [hs, hc]
  refine ⟨q.read c (paletteAddr (combine q.bgPixel q.fgPixel)), Ppu.read_palette_lt _ _ (paletteAddr_palette _), ?_⟩
  split
  · simp only [Ppu.composePixel, hf, hs, hc]
  · exact hf

/-- The advance keeps everything but the counters and the frame flags. -/
theorem Ppu.advance_frame (p : Ppu) :
    p.advance =
      { p with
        cycle := p.advance.cycle
        scanline := p.advance.scanline
        frameComplete := p.advance.frameComplete
        oddFrame := p.advance.oddFrame } := by
  unfold Ppu.advance
  repeat' split
  all_goals rfl

/-- The counters stay in range across a dot (62_ppu R403). -/
theorem ppuTick_range {p : Ppu} {c : Cart} (h1 : -1 ≤ p.scanline) (h2 : p.scanline ≤ 260) (h3 : p.cycle ≤ 340) :
    -1 ≤ (ppuTick p c).1.scanline ∧ (ppuTick p c).1.scanline ≤ 260 ∧ (ppuTick p c).1.cycle ≤ 340 := by
  have hs := (Ppu.dot_keeps p c).scanline
  have hc : (p.dot c).cycle ≤ 340 := by
    rw [Ppu.dot_cycle, Ppu.skipDot_cycle]; split <;> omega
  simp only [ppuTick]
  generalize p.dot c = q at *
  unfold Ppu.advance
  split
  · split <;> dsimp only <;> omega
  · dsimp only; omega

/-! ## The CPU's accesses -/

/-- What no access through the PPU's registers changes: the pipelines, the counters, the framebuffer. -/
structure Ppu.AccessKeeps (p q : Ppu) : Prop where
  nextTileId : q.nextTileId = p.nextTileId
  nextTileAttrib : q.nextTileAttrib = p.nextTileAttrib
  nextTileLsb : q.nextTileLsb = p.nextTileLsb
  nextTileMsb : q.nextTileMsb = p.nextTileMsb
  sprites : q.sprites = p.sprites
  spriteCount : q.spriteCount = p.spriteCount
  zeroHitPossible : q.zeroHitPossible = p.zeroHitPossible
  zeroDrawing : q.zeroDrawing = p.zeroDrawing
  scanline : q.scanline = p.scanline
  cycle : q.cycle = p.cycle
  oddFrame : q.oddFrame = p.oddFrame
  frameComplete : q.frameComplete = p.frameComplete
  framebuffer : q.framebuffer = p.framebuffer
  nmiLatch : q.nmiLatch = true → p.nmiLatch = true

theorem Ppu.AccessKeeps.refl (p : Ppu) : Ppu.AccessKeeps p p := by constructor <;> first | rfl | exact id

theorem Ppu.AccessKeeps.trans {p q r : Ppu} (h : Ppu.AccessKeeps p q) (k : Ppu.AccessKeeps q r) :
    Ppu.AccessKeeps p r where
  nextTileId := k.nextTileId.trans h.nextTileId
  nextTileAttrib := k.nextTileAttrib.trans h.nextTileAttrib
  nextTileLsb := k.nextTileLsb.trans h.nextTileLsb
  nextTileMsb := k.nextTileMsb.trans h.nextTileMsb
  sprites := k.sprites.trans h.sprites
  spriteCount := k.spriteCount.trans h.spriteCount
  zeroHitPossible := k.zeroHitPossible.trans h.zeroHitPossible
  zeroDrawing := k.zeroDrawing.trans h.zeroDrawing
  scanline := k.scanline.trans h.scanline
  cycle := k.cycle.trans h.cycle
  oddFrame := k.oddFrame.trans h.oddFrame
  frameComplete := k.frameComplete.trans h.frameComplete
  framebuffer := k.framebuffer.trans h.framebuffer
  nmiLatch := fun e => h.nmiLatch (k.nmiLatch e)

theorem Ppu.regRead_keeps (p : Ppu) (c : Cart) (low5 : BitVec 5) (r : BitVec 3) :
    Ppu.AccessKeeps p (p.regRead c low5 r).2 := by
  unfold Ppu.regRead
  split
  · refine ⟨rfl, rfl, rfl, rfl, rfl, rfl, rfl, rfl, rfl, rfl, rfl, rfl, rfl, ?_⟩
    simp only [Ppu.readStatus]
    split
    · intro h; cases h
    · exact id
  all_goals exact ⟨rfl, rfl, rfl, rfl, rfl, rfl, rfl, rfl, rfl, rfl, rfl, rfl, rfl, id⟩

theorem Ppu.write_keeps (p : Ppu) (c : Cart) (a : Word) (d : Byte) : Ppu.AccessKeeps p (p.write c a d).1 := by
  unfold Ppu.write
  dsimp only
  repeat' split
  all_goals exact ⟨rfl, rfl, rfl, rfl, rfl, rfl, rfl, rfl, rfl, rfl, rfl, rfl, rfl, id⟩

theorem Ppu.regWrite_keeps (p : Ppu) (c : Cart) (r : BitVec 3) (d : Byte) :
    Ppu.AccessKeeps p (p.regWrite c r d).1 := by
  unfold Ppu.regWrite
  split
  case h_7 => exact (Ppu.write_keeps p c (p.v.setWidth 16) d).trans
                ⟨rfl, rfl, rfl, rfl, rfl, rfl, rfl, rfl, rfl, rfl, rfl, rfl, rfl, id⟩
  all_goals
    try unfold Ppu.writeScroll
    try unfold Ppu.writeAddr
    (try split) <;> exact ⟨rfl, rfl, rfl, rfl, rfl, rfl, rfl, rfl, rfl, rfl, rfl, rfl, rfl, id⟩

end Sys2Proof.Machine
end

