-- ==== Sys2Proof/Laws/Step.lean ====
section
/-! SUPPORT. What one step can do, said once: the six cases of a CPU slot, and the closure lemma from which every
invariant of a step follows. -/

namespace Sys2Proof.Machine

/-- A fetch reads the bus and writes one latch. -/
theorem InstrClosed.fetch {R : State → State → Prop} (h : InstrClosed R) (s : State) : R s (fetch s).state := by
  have h1 : R s (memRead s s.cpu.pc).2 := h.read s _
  unfold Machine.fetch
  dsimp only
  have h2 : R s (if 2 ≤ opcodeSize (memRead s s.cpu.pc).1 then memRead (memRead s s.cpu.pc).2 (s.cpu.pc + 1)
      else (0, (memRead s s.cpu.pc).2)).2 := by
    split
    · exact h.trans h1 (h.read _ _)
    · exact h1
  generalize (if 2 ≤ opcodeSize (memRead s s.cpu.pc).1 then memRead (memRead s s.cpu.pc).2 (s.cpu.pc + 1)
      else (0, (memRead s s.cpu.pc).2)) = b1 at *
  split
  · exact h.thenCpu (h.trans h2 (h.read _ _)) _
  · exact h.thenCpu h2 _

/-- What the CPU's or the DMA engine's part of a tick can be (61_bus R341, 60_exceptions R306). -/
inductive SlotCase (s : State) : State → Prop where
  /-- Two ticks of three. -/
  | idle (h : s.systemClock % 3 ≠ 0) : SlotCase s s
  | dma (h : s.systemClock % 3 = 0) (hd : s.dma.transfer = true) : SlotCase s (dmaStep s)
  | debit (h : s.systemClock % 3 = 0) (hd : s.dma.transfer = false) (hr : s.cpu.remainingCycles ≠ 0) :
      SlotCase s (countCycle s)
  | nmi (h : s.systemClock % 3 = 0) (hd : s.dma.transfer = false) (hr : s.cpu.remainingCycles = 0)
      (hn : s.ppu.nmiLatch = true) : SlotCase s (countCycle (takeNmi (freshTemp s)))
  | irq (h : s.systemClock % 3 = 0) (hd : s.dma.transfer = false) (hr : s.cpu.remainingCycles = 0)
      (hn : s.ppu.nmiLatch = false) (hi : irqPending s = true) : SlotCase s (countCycle (takeIrq (freshTemp s)))
  | instr (h : s.systemClock % 3 = 0) (hd : s.dma.transfer = false) (hr : s.cpu.remainingCycles = 0)
      (hn : s.ppu.nmiLatch = false) (hi : irqPending s = false) {u : State}
      (he : exec (fetch (freshTemp s)).instr (fetch (freshTemp s)).state = .next u) : SlotCase s (countCycle u)

theorem cpuSlot_cases {s t : State} (h : cpuSlot s = .next t) : SlotCase s t := by
  unfold cpuSlot at h
  split at h
  · rename_i h3
    split at h
    · cases h; exact .dma h3 ‹_›
    · have hd : s.dma.transfer = false := by simpa using ‹¬ s.dma.transfer = true›
      unfold cpuTick at h
      split at h
      · rename_i hr
        unfold boundary at h
        split at h
        · cases h; exact .nmi h3 hd hr ‹_›
        · have hn : s.ppu.nmiLatch = false := by simpa using ‹¬ s.ppu.nmiLatch = true›
          split at h
          · cases h; exact .irq h3 hd hr hn ‹_›
          · have hi : irqPending s = false := by simpa using ‹¬ irqPending s = true›
            unfold runInstr at h
            dsimp only at h
            cases he : exec (fetch (freshTemp s)).instr (fetch (freshTemp s)).state with
            | next u => rw [he] at h; cases h; exact .instr h3 hd hr hn hi he
            | fault e => rw [he] at h; cases h
            | refused e => rw [he] at h; cases h
      · cases h; exact .debit h3 hd ‹_›
  · cases h; exact .idle ‹_›

/-- One step: a valid cartridge, the devices, one CPU slot, the end of the tick. -/
theorem step_cases {s t : State} (h : step s = .next t) :
    s.cart.valid = true ∧ ∃ u, SlotCase (devicesTick s) u ∧ t = endTick u := by
  unfold step masterTick at h
  split at h
  · cases hs : cpuSlot (devicesTick s) with
    | next u => rw [hs] at h; cases h; exact ⟨‹_›, u, cpuSlot_cases hs, rfl⟩
    | fault e => rw [hs] at h; cases h
    | refused e => rw [hs] at h; cases h
  · cases h

/-- A relation that holds across everything the CPU's or the DMA engine's part of a tick can do. -/
structure SlotClosed (R : State → State → Prop) : Prop extends InstrClosed R where
  ill : ∀ s l, R s { s with illegalTrace := l }
  dma : ∀ s, R s (dmaStep s)
  fresh : ∀ s, R s (freshTemp s)
  ack : ∀ s, R s { s with cart := s.cart.irqClear }
  nmi : ∀ s, R s { s with ppu := { s.ppu with nmiLatch := false } }

/-- Every slot keeps the relation. -/
theorem SlotClosed.slot {R : State → State → Prop} (h : SlotClosed R) {d u : State} (hu : SlotCase d u) : R d u := by
  cases hu with
  | idle => exact h.refl _
  | dma => exact h.dma _
  | debit => exact h.cpu _ _
  | nmi =>
    exact h.thenCpu (h.thenCpu (h.toInstrClosed.takeException (h.trans (h.fresh _) (h.nmi _)) _ _ _) _) _
  | irq =>
    exact h.thenCpu (h.thenCpu (h.trans (h.toInstrClosed.takeException (h.fresh _) _ _ _) (h.ack _)) _) _
  | instr _ _ _ _ _ he =>
    exact h.thenCpu (h.trans (h.trans (h.fresh _) (h.toInstrClosed.fetch _)) (h.toInstrClosed.exec he h.ill)) _

/-- A relation that holds across every part of a step. -/
structure StepClosed (R : State → State → Prop) : Prop extends SlotClosed R where
  devices : ∀ s, R s (devicesTick s)
  tail : ∀ s, R s (endTick s)

/-- Every step keeps the relation. -/
theorem StepClosed.step {R : State → State → Prop} (h : StepClosed R) {s t : State} (hs : Machine.step s = .next t) :
    R s t := by
  obtain ⟨-, u, hu, rfl⟩ := step_cases hs
  exact h.trans (h.trans (h.devices s) (h.toSlotClosed.slot hu)) (h.tail u)

/-- A slot answers a state unless it runs an illegal opcode under `refuse`. -/
theorem cpuSlot_completes {s : State} (hp : s.config.illegalPolicy = .nop2) : ∃ t, cpuSlot s = .next t := by
  unfold cpuSlot
  split
  · split
    · exact ⟨_, rfl⟩
    · unfold cpuTick
      split
      · unfold boundary
        split
        · exact ⟨_, rfl⟩
        · split
          · exact ⟨_, rfl⟩
          · have hc : (fetch (freshTemp s)).state.config = s.config :=
              InstrClosed.fetch (R := fun s t => t.config = s.config)
                ⟨fun _ => rfl, fun h1 h2 => h2.trans h1, fun s a => by rw [memRead_frame], fun s a v => by rw [memWrite_frame],
                  fun _ _ => rfl⟩ (freshTemp s)
            rcases exec_next_or_refuses (fetch (freshTemp s)).instr (fetch (freshTemp s)).state with
              ⟨t, ht⟩ | ⟨_, _, -, hr, -⟩
            · exact ⟨_, by unfold runInstr; dsimp only; rw [ht]; rfl⟩
            · rw [hc, hp] at hr; cases hr
      · exact ⟨_, rfl⟩
  · exact ⟨_, rfl⟩

end Sys2Proof.Machine
end

