-- ==== Sys2Proof/Laws/Machine.lean ====
section
/-! SUPPORT. What the CPU's or the DMA engine's part of a tick, and a whole step, do to the devices and the parameters:
each is one closure over `SlotClosed` or `StepClosed`. -/

namespace Sys2Proof.Machine

/-! ## The PPU across a slot -/

theorem memRead_ppu_keeps (s : State) (a : Word) : Ppu.AccessKeeps s.ppu (memRead s a).2.ppu := by
  unfold memRead busRead controllerRead
  repeat' split
  all_goals first
    | exact .refl _
    | exact Ppu.regRead_keeps _ _ _ _

theorem memWrite_ppu_keeps (s : State) (a : Word) (v : Byte) : Ppu.AccessKeeps s.ppu (memWrite s a v).ppu := by
  unfold memWrite busWrite controllerLatch
  repeat' split
  all_goals first
    | exact .refl _
    | exact Ppu.regWrite_keeps _ _ _ _

theorem dmaStep_ppu_keeps (s : State) : Ppu.AccessKeeps s.ppu (dmaStep s).ppu := by
  unfold dmaStep
  dsimp only
  repeat' split
  all_goals first
    | exact .refl _
    | exact memRead_ppu_keeps _ _
    | exact ⟨rfl, rfl, rfl, rfl, rfl, rfl, rfl, rfl, rfl, rfl, rfl, rfl, rfl, id⟩

/-- A slot leaves the PPU's pipelines, counters and framebuffer alone, and never raises the NMI latch. -/
theorem slot_ppu_keeps {d u : State} (h : SlotCase d u) : Ppu.AccessKeeps d.ppu u.ppu := by
  refine SlotClosed.slot (R := fun s t => Ppu.AccessKeeps s.ppu t.ppu) ?_ h
  refine ⟨⟨fun s => .refl _, fun h k => h.trans k, memRead_ppu_keeps, memWrite_ppu_keeps, fun s c => .refl _⟩,
    fun s l => .refl _, dmaStep_ppu_keeps, fun s => .refl _, fun s => .refl _, fun s => ?_⟩
  exact ⟨rfl, rfl, rfl, rfl, rfl, rfl, rfl, rfl, rfl, rfl, rfl, rfl, rfl, fun h => by cases h⟩

/-! ## The cartridge's parameters across a step -/

/-- Two mappers of one variant, with the same fixed bank on M2 (64_mappers R531). -/
def Mapper.SameKind (m n : Mapper) : Prop :=
  match m, n with
  | .m0, .m0 | .m1 _, .m1 _ | .m4 _, .m4 _ => True
  | .m2 q, .m2 r => r.prgBankHi = q.prgBankHi
  | .m0, .m1 _ | .m0, .m2 _ | .m0, .m4 _ | .m1 _, .m0 | .m1 _, .m2 _ | .m1 _, .m4 _ | .m2 _, .m0 | .m2 _, .m1 _
  | .m2 _, .m4 _ | .m4 _, .m0 | .m4 _, .m1 _ | .m4 _, .m2 _ => False

theorem Mapper.SameKind.refl (m : Mapper) : Mapper.SameKind m m := by cases m <;> simp [Mapper.SameKind]

theorem Mapper.SameKind.trans {m n o : Mapper} (h : Mapper.SameKind m n) (k : Mapper.SameKind n o) :
    Mapper.SameKind m o := by
  cases m <;> cases n <;> cases o <;> simp_all [Mapper.SameKind]

/-- What nothing inside the machine changes of a cartridge (00_scope R8). -/
structure Cart.Keeps (c d : Cart) : Prop where
  prgBanks : d.prgBanks = c.prgBanks
  chrBanks : d.chrBanks = c.chrBanks
  prg : d.prg = c.prg
  headerMirror : d.headerMirror = c.headerMirror
  trainerPresent : d.trainerPresent = c.trainerPresent
  chr : c.chrBanks ≠ 0 → d.chr = c.chr
  kind : Mapper.SameKind c.mapper d.mapper

theorem Cart.Keeps.refl (c : Cart) : Cart.Keeps c c := ⟨rfl, rfl, rfl, rfl, rfl, fun _ => rfl, .refl _⟩

theorem Cart.Keeps.trans {c d e : Cart} (h : Cart.Keeps c d) (k : Cart.Keeps d e) : Cart.Keeps c e :=
  ⟨k.prgBanks.trans h.prgBanks, k.chrBanks.trans h.chrBanks, k.prg.trans h.prg, k.headerMirror.trans h.headerMirror,
    k.trainerPresent.trans h.trainerPresent, fun n => (k.chr (h.chrBanks ▸ n)).trans (h.chr n), h.kind.trans k.kind⟩

theorem Cart.cpuMapWrite_keeps {c c' : Cart} {r : Bool} {a : Word} {v : Byte} (h : c.cpuMapWrite r a v = some c') :
    Cart.Keeps c c' := by
  revert h
  cases hm : c.mapper <;> simp only [Cart.cpuMapWrite, hm]
  · simp
  all_goals
    repeat' split
    all_goals
      simp only [Option.some.injEq, reduceCtorEq, false_implies]
      try rintro rfl
      try exact ⟨rfl, rfl, rfl, rfl, rfl, fun _ => rfl, by rw [hm]; simp [Mapper.SameKind]⟩

theorem Cart.chrWrite_keeps {c c' : Cart} {a : Word} {v : Byte} (h : c.chrWrite a v = some c') : Cart.Keeps c c' := by
  unfold Cart.chrWrite at h
  split at h
  · cases h; exact ⟨rfl, rfl, rfl, rfl, rfl, fun n => absurd ‹_› n, .refl _⟩
  · cases h

theorem Cart.scanlineTick_keeps (c : Cart) : Cart.Keeps c c.scanlineTick := by
  unfold Cart.scanlineTick
  split
  · exact ⟨rfl, rfl, rfl, rfl, rfl, fun _ => rfl, by simp [*, Mapper.SameKind]⟩
  all_goals exact .refl _

theorem Cart.irqClear_keeps (c : Cart) : Cart.Keeps c c.irqClear := by
  unfold Cart.irqClear
  split
  · exact ⟨rfl, rfl, rfl, rfl, rfl, fun _ => rfl, by simp [*, Mapper.SameKind]⟩
  all_goals exact .refl _

theorem Ppu.write_cart_keeps (p : Ppu) (c : Cart) (a : Word) (d : Byte) : Cart.Keeps c (p.write c a d).2 := by
  unfold Ppu.write
  dsimp only
  repeat' split
  · exact Cart.chrWrite_keeps ‹_›
  all_goals exact .refl _

theorem Ppu.regWrite_cart_keeps (p : Ppu) (c : Cart) (r : BitVec 3) (d : Byte) : Cart.Keeps c (p.regWrite c r d).2 := by
  unfold Ppu.regWrite
  split
  case h_7 => exact Ppu.write_cart_keeps _ _ _ _
  all_goals exact .refl _

theorem memWrite_cart_keeps (s : State) (a : Word) (v : Byte) : Cart.Keeps s.cart (memWrite s a v).cart := by
  unfold memWrite
  split
  · exact Cart.cpuMapWrite_keeps ‹_›
  · unfold busWrite controllerLatch
    repeat' split
    all_goals first
      | exact .refl _
      | exact Ppu.regWrite_cart_keeps _ _ _ _

/-- What no step changes: the parameters of 00_scope R8 and R9. -/
structure ParamsKept (s t : State) : Prop where
  config : t.config = s.config
  controller0 : t.controller0 = s.controller0
  controller1 : t.controller1 = s.controller1
  cart : Cart.Keeps s.cart t.cart

theorem ParamsKept.refl (s : State) : ParamsKept s s := ⟨rfl, rfl, rfl, .refl _⟩

theorem ParamsKept.trans {s t u : State} (h : ParamsKept s t) (k : ParamsKept t u) : ParamsKept s u :=
  ⟨k.config.trans h.config, k.controller0.trans h.controller0, k.controller1.trans h.controller1, h.cart.trans k.cart⟩

/-- What a DMA cycle may change (61_bus R351). -/
theorem dmaStep_frame (s : State) :
    dmaStep s =
      { s with
        ppu := (dmaStep s).ppu
        dma := (dmaStep s).dma
        ctrlShift0 := (dmaStep s).ctrlShift0
        ctrlShift1 := (dmaStep s).ctrlShift1 } := by
  unfold dmaStep
  dsimp only
  split
  · split <;> rfl
  · split
    · rw [memRead_frame]
    · rfl

theorem paramsKept_slot : SlotClosed ParamsKept where
  refl := .refl
  trans := .trans
  read s a := by rw [memRead_frame]; exact ⟨rfl, rfl, rfl, .refl _⟩
  write s a v :=
    ⟨by rw [memWrite_frame], by rw [memWrite_frame], by rw [memWrite_frame], memWrite_cart_keeps s a v⟩
  cpu _ _ := ⟨rfl, rfl, rfl, .refl _⟩
  ill _ _ := ⟨rfl, rfl, rfl, .refl _⟩
  dma s := by rw [dmaStep_frame]; exact ⟨rfl, rfl, rfl, .refl _⟩
  fresh _ := ⟨rfl, rfl, rfl, .refl _⟩
  ack s := ⟨rfl, rfl, rfl, s.cart.irqClear_keeps⟩
  nmi _ := ⟨rfl, rfl, rfl, .refl _⟩

/-- Every step keeps the parameters. -/
theorem paramsKept_step : StepClosed ParamsKept where
  toSlotClosed := paramsKept_slot
  devices s := ⟨rfl, rfl, rfl, by
    simp only [devicesTick, ppuTick, Ppu.mapperHook]
    split
    · exact Cart.scanlineTick_keeps _
    · exact .refl _⟩
  tail _ := ⟨rfl, rfl, rfl, .refl _⟩

/-! ## The canonical form of every store across a step (log 7) -/

/-- Every store of the machine is in canonical form, and M1's serial counter is in range. -/
structure Canonical (s : State) : Prop where
  ram : s.ram.wf = true
  ppu : Ppu.StoresCanonical s.ppu
  cart : Cart.Sound s.cart

theorem Mmc1.writeReg_sound {r : Mmc1} (a : Word) (d : Byte) (h : r.ram.wf = true ∧ r.loadCount ≤ 4) :
    (r.writeReg a d).ram.wf = true ∧ (r.writeReg a d).loadCount ≤ 4 := by
  unfold Mmc1.writeReg
  dsimp only
  repeat' split
  all_goals exact ⟨h.1, by dsimp only; omega⟩

theorem Mmc3.writeReg_ram (r : Mmc3) (a : Word) (d : Byte) : (r.writeReg a d).ram = r.ram := by
  unfold Mmc3.writeReg; split <;> rfl

theorem Cart.cpuMapWrite_sound {c c' : Cart} {r : Bool} {a : Word} {v : Byte} (h : c.cpuMapWrite r a v = some c')
    (hc : Cart.Sound c) : Cart.Sound c' := by
  have hk := Cart.cpuMapWrite_keeps h
  have hf := cpuMapWrite_frame h
  have hm : Mapper.Sound c.mapper := hc.2.2
  have e1 : c'.prg = c.prg := hk.prg
  have e2 : c'.chr = c.chr := by rw [hf]
  refine ⟨e1 ▸ hc.1, e2 ▸ hc.2.1, ?_⟩
  revert h hm
  cases hc : c.mapper <;> simp only [Cart.cpuMapWrite, hc]
  · simp
  all_goals
    repeat' split
    all_goals
      simp only [Option.some.injEq, reduceCtorEq, false_implies]
      try rintro rfl
      try simp only [Mapper.Sound]
  · exact Mmc1.writeReg_sound _ _
  · exact fun h => ⟨Memory.wf_write _ _ h.1, h.2⟩
  · exact fun _ => trivial
  · rw [Mmc3.writeReg_ram]; exact id
  · exact Memory.wf_write _ _

theorem Ppu.write_canonical {p : Ppu} {c : Cart} (a : Word) (d : Byte) (hp : Ppu.StoresCanonical p) (hc : Cart.Sound c) :
    Ppu.StoresCanonical (p.write c a d).1 ∧ Cart.Sound (p.write c a d).2 := by
  obtain ⟨h1, h2, h3, h4, h5⟩ := hp
  unfold Ppu.write
  dsimp only
  split
  · cases h : c.chrWrite (a &&& 0x3FFF) d with
    | none => exact ⟨⟨h1, h2, Memory.wf_write _ _ h3, h4, h5⟩, hc⟩
    | some c' =>
      unfold Cart.chrWrite at h
      split at h
      · cases h; exact ⟨⟨h1, h2, h3, h4, h5⟩, hc.1, Memory.wf_write _ _ hc.2.1, hc.2.2⟩
      · cases h
  · split
    · exact ⟨⟨h1, Memory.wf_write _ _ h2, h3, h4, h5⟩, hc⟩
    · exact ⟨⟨h1, h2, h3, Memory.wf_write _ _ h4, h5⟩, hc⟩

theorem Ppu.regWrite_canonical {p : Ppu} {c : Cart} (r : BitVec 3) (d : Byte) (hp : Ppu.StoresCanonical p)
    (hc : Cart.Sound c) : Ppu.StoresCanonical (p.regWrite c r d).1 ∧ Cart.Sound (p.regWrite c r d).2 := by
  unfold Ppu.regWrite
  split
  case h_4 => exact ⟨⟨Memory.wf_write _ _ hp.1, hp.2⟩, hc⟩
  case h_7 => exact Ppu.write_canonical _ _ hp hc
  all_goals
    try unfold Ppu.writeScroll
    try unfold Ppu.writeAddr
    (try split) <;> exact ⟨hp, hc⟩

theorem Ppu.regRead_canonical {p : Ppu} {c : Cart} {low5 : BitVec 5} (r : BitVec 3) (hp : Ppu.StoresCanonical p) :
    Ppu.StoresCanonical (p.regRead c low5 r).2 := by
  unfold Ppu.regRead
  split <;> exact hp

theorem memRead_canonical {s : State} (a : Word) (h : Canonical s) : Canonical (memRead s a).2 := by
  unfold memRead busRead controllerRead
  repeat' split
  all_goals first
    | exact h
    | exact ⟨h.ram, h.ppu, h.cart⟩
    | exact ⟨h.ram, Ppu.regRead_canonical _ h.ppu, h.cart⟩

/-- Every write through the CPU bus keeps the canonical form. -/
theorem memWrite_canonical {s : State} (a : Word) (v : Byte) (h : Canonical s) : Canonical (memWrite s a v) := by
  unfold memWrite
  split
  · exact ⟨h.ram, h.ppu, Cart.cpuMapWrite_sound ‹_› h.cart⟩
  · unfold busWrite controllerLatch
    repeat' split
    all_goals first
      | exact h
      | exact ⟨Memory.wf_write _ _ h.ram, h.ppu, h.cart⟩
      | exact ⟨h.ram, (Ppu.regWrite_canonical _ _ h.ppu h.cart).1, (Ppu.regWrite_canonical _ _ h.ppu h.cart).2⟩
      | exact ⟨h.ram, h.ppu, h.cart⟩

theorem dmaStep_canonical {s : State} (h : Canonical s) : Canonical (dmaStep s) := by
  unfold dmaStep
  dsimp only
  repeat' split
  all_goals first
    | exact h
    | exact ⟨h.ram, h.ppu, h.cart⟩
    | exact ⟨(memRead_canonical _ h).ram, (memRead_canonical _ h).ppu, (memRead_canonical _ h).cart⟩
    | exact ⟨h.ram, ⟨Memory.wf_write _ _ h.ppu.1, h.ppu.2⟩, h.cart⟩

theorem Cart.irqClear_sound {c : Cart} (h : Cart.Sound c) : Cart.Sound c.irqClear := by
  unfold Cart.irqClear
  split
  · rename_i r hm
    have : Mapper.Sound c.mapper := h.2.2
    rw [hm] at this
    exact ⟨h.1, h.2.1, this⟩
  all_goals exact h

theorem Cart.scanlineTick_sound {c : Cart} (h : Cart.Sound c) : Cart.Sound c.scanlineTick := by
  unfold Cart.scanlineTick
  split
  · rename_i r hm
    have : Mapper.Sound c.mapper := h.2.2
    rw [hm] at this
    exact ⟨h.1, h.2.1, this⟩
  all_goals exact h

theorem devicesTick_canonical {s : State} (h : Canonical s) : Canonical (devicesTick s) := by
  refine ⟨h.ram, ?_, ?_⟩
  · simp only [devicesTick, ppuTick]
    rw [Ppu.advance_frame]
    have hk := Ppu.dot_keeps s.ppu s.cart
    obtain ⟨v, -, hf⟩ := Ppu.dot_framebuffer s.ppu s.cart
    refine ⟨hk.oam ▸ h.ppu.1, hk.nametable ▸ h.ppu.2.1, hk.pattern ▸ h.ppu.2.2.1, hk.palette ▸ h.ppu.2.2.2.1, ?_⟩
    dsimp only
    rw [hf]
    split
    · exact Memory.wf_write _ _ h.ppu.2.2.2.2
    · exact h.ppu.2.2.2.2
  · simp only [devicesTick, ppuTick, Ppu.mapperHook]
    split
    · exact Cart.scanlineTick_sound h.cart
    · exact h.cart

theorem canonical_slot : SlotClosed (fun s t => Canonical s → Canonical t) where
  refl _ := id
  trans h k := fun x => k (h x)
  read _ a := memRead_canonical a
  write _ a v := memWrite_canonical a v
  cpu _ _ h := ⟨h.ram, h.ppu, h.cart⟩
  ill _ _ h := ⟨h.ram, h.ppu, h.cart⟩
  dma _ := dmaStep_canonical
  fresh _ h := ⟨h.ram, h.ppu, h.cart⟩
  ack _ h := ⟨h.ram, h.ppu, Cart.irqClear_sound h.cart⟩
  nmi _ h := ⟨h.ram, h.ppu, h.cart⟩

/-- Every step keeps every store in canonical form. -/
theorem canonical_step : StepClosed (fun s t => Canonical s → Canonical t) where
  toSlotClosed := canonical_slot
  devices _ := devicesTick_canonical
  tail _ h := ⟨h.ram, h.ppu, h.cart⟩

end Sys2Proof.Machine
end

