-- ==== Sys2Proof/Laws/PerInstr.lean ====
section
/-! SUPPORT. For every instruction: a well-formed one is encoded in as many bytes as its format has (30_encoding R120,
R124), so the encoder has an opcode byte for every form that R140 lists. -/

namespace Sys2Proof

theorem Addr.bytes_length (m : Addr) : m.bytes.length + 1 = m.format.size := by cases m <;> rfl

theorem Src.bytes_length (o : Src) : o.bytes.length + 1 = o.format.size := by
  cases o with
  | imm b1 => rfl
  | mem m => exact m.bytes_length

theorem Tgt.bytes_length (o : Tgt) : o.bytes.length + 1 = o.format.size := by
  cases o with
  | acc => rfl
  | mem m => exact m.bytes_length

theorem JmpTgt.bytes_length (o : JmpTgt) : o.bytes.length + 1 = o.format.size := by cases o <;> rfl

/-- A format that a mnemonic has is found in its list of encodings. -/
theorem lookup_of_mem_keys {f : Format} {l : List (Format × Byte)} (h : f ∈ l.map Prod.fst) :
    ∃ op, l.lookup f = some op := by
  cases e : l.lookup f with
  | some op => exact ⟨op, rfl⟩
  | none =>
    rw [List.lookup_eq_none_iff] at e
    obtain ⟨p, hp, rfl⟩ := List.mem_map.1 h
    simpa using e p hp

/-- The formats of 30_encoding R140 in the check and in the encoder are the same. -/
theorem Instr.formats_have_opcodes (i : Instr) : ∀ f ∈ i.formats, f ∈ i.opcodes.map Prod.fst := by
  have h : i.formats.all (fun f => decide (f ∈ i.opcodes.map Prod.fst)) = true := by cases i <;> rfl
  simpa only [List.all_eq_true, decide_eq_true_eq] using h

end Sys2Proof

namespace Sys2Proof.Laws.EncodeLength

/-- The statement of this family. -/
def Statement (i : Instr) : Prop := i.WellFormed → (encode i).length = i.size

/-- It holds of an instruction whose operand bytes fit its format. -/
theorem of_opcode {i : Instr} (h : i.operandBytes.length + 1 = i.format.size) : Statement i := by
  intro w
  have hf : i.format ∈ i.formats := by
    have h1 := (Bool.and_eq_true _ _).mp w
    simpa using h1.1
  obtain ⟨op, e⟩ := lookup_of_mem_keys (i.formats_have_opcodes _ hf)
  simpa [encode, e, Instr.size] using h

theorem lda (o : Src) : Statement (.lda o) := of_opcode o.bytes_length
theorem ldx (o : Src) : Statement (.ldx o) := of_opcode o.bytes_length
theorem ldy (o : Src) : Statement (.ldy o) := of_opcode o.bytes_length
theorem sta (m : Addr) : Statement (.sta m) := of_opcode m.bytes_length
theorem stx (m : Addr) : Statement (.stx m) := of_opcode m.bytes_length
theorem sty (m : Addr) : Statement (.sty m) := of_opcode m.bytes_length
theorem tax : Statement .tax := fun _ => rfl
theorem tay : Statement .tay := fun _ => rfl
theorem txa : Statement .txa := fun _ => rfl
theorem tya : Statement .tya := fun _ => rfl
theorem tsx : Statement .tsx := fun _ => rfl
theorem txs : Statement .txs := fun _ => rfl
theorem pha : Statement .pha := fun _ => rfl
theorem php : Statement .php := fun _ => rfl
theorem pla : Statement .pla := fun _ => rfl
theorem plp : Statement .plp := fun _ => rfl
theorem ora (o : Src) : Statement (.ora o) := of_opcode o.bytes_length
theorem and (o : Src) : Statement (.and o) := of_opcode o.bytes_length
theorem eor (o : Src) : Statement (.eor o) := of_opcode o.bytes_length
theorem adc (o : Src) : Statement (.adc o) := of_opcode o.bytes_length
theorem sbc (o : Src) : Statement (.sbc o) := of_opcode o.bytes_length
theorem cmp (o : Src) : Statement (.cmp o) := of_opcode o.bytes_length
theorem cpx (o : Src) : Statement (.cpx o) := of_opcode o.bytes_length
theorem cpy (o : Src) : Statement (.cpy o) := of_opcode o.bytes_length
theorem bit (m : Addr) : Statement (.bit m) := of_opcode m.bytes_length
theorem asl (o : Tgt) : Statement (.asl o) := of_opcode o.bytes_length
theorem lsr (o : Tgt) : Statement (.lsr o) := of_opcode o.bytes_length
theorem rol (o : Tgt) : Statement (.rol o) := of_opcode o.bytes_length
theorem ror (o : Tgt) : Statement (.ror o) := of_opcode o.bytes_length
theorem inc (m : Addr) : Statement (.inc m) := of_opcode m.bytes_length
theorem dec (m : Addr) : Statement (.dec m) := of_opcode m.bytes_length
theorem inx : Statement .inx := fun _ => rfl
theorem iny : Statement .iny := fun _ => rfl
theorem dex : Statement .dex := fun _ => rfl
theorem dey : Statement .dey := fun _ => rfl
theorem bpl (b1 : Byte) : Statement (.bpl b1) := fun _ => rfl
theorem bmi (b1 : Byte) : Statement (.bmi b1) := fun _ => rfl
theorem bvc (b1 : Byte) : Statement (.bvc b1) := fun _ => rfl
theorem bvs (b1 : Byte) : Statement (.bvs b1) := fun _ => rfl
theorem bcc (b1 : Byte) : Statement (.bcc b1) := fun _ => rfl
theorem bcs (b1 : Byte) : Statement (.bcs b1) := fun _ => rfl
theorem bne (b1 : Byte) : Statement (.bne b1) := fun _ => rfl
theorem beq (b1 : Byte) : Statement (.beq b1) := fun _ => rfl
theorem jmp (o : JmpTgt) : Statement (.jmp o) := of_opcode o.bytes_length
theorem jsr (target : Word) : Statement (.jsr target) := fun _ => rfl
theorem rts : Statement .rts := fun _ => rfl
theorem clc : Statement .clc := fun _ => rfl
theorem sec : Statement .sec := fun _ => rfl
theorem cli : Statement .cli := fun _ => rfl
theorem sei : Statement .sei := fun _ => rfl
theorem clv : Statement .clv := fun _ => rfl
theorem cld : Statement .cld := fun _ => rfl
theorem sed : Statement .sed := fun _ => rfl
theorem nop : Statement .nop := fun _ => rfl
theorem brk : Statement .brk := fun _ => rfl
theorem rti : Statement .rti := fun _ => rfl
theorem ill (op b1 : Byte) : Statement (.ill op b1) := fun _ => rfl

end Sys2Proof.Laws.EncodeLength
end

