-- ==== Sys2Proof/Tests/Slice0.lean ====
section
/-! SUPPORT. Tests on single steps and the named witnesses of the statements' hypotheses. Every expected value is the
spec's: the vectors of 95_test_vectors (named in each docstring), an example of a rule, or a count by hand from one. -/

namespace Sys2Proof.Tests

open Sys2Proof.Machine Sys2Proof.Claims

set_option maxRecDepth 10000

/-! ## WellFormed refuses (30_encoding R140, R142) -/

theorem test_form_not_of_the_mnemonic : ¬ (Instr.lda (.mem (.zpy 0x10))).WellFormed := by decide
theorem test_no_immediate_store_form : ¬ (Instr.sta (.zpy 0x10)).WellFormed := by decide
theorem test_no_accumulator_shift_by_y : ¬ (Instr.asl (.mem (.aby 0x1234))).WellFormed := by decide
theorem test_no_indexed_bit : ¬ (Instr.bit (.abx 0x1234)).WellFormed := by decide
theorem test_legal_opcode_is_not_ill : ¬ (Instr.ill 0xA9 0x00).WellFormed := by decide
theorem test_encoder_refuses_ill_formed : encode (.ldx (.mem (.zpx 0x10))) = [] := by decide

/-! ## Decoding: one word of every constructor, written out from 30_encoding R140 -/

theorem test_decode_load_store :
    decode [0xA5, 0x10] = .ok (.lda (.mem (.zpg 0x10))) [] ∧ decode [0xB6, 0x10] = .ok (.ldx (.mem (.zpy 0x10))) [] ∧
    decode [0xBC, 0x34, 0x12] = .ok (.ldy (.mem (.abx 0x1234))) [] ∧ decode [0x91, 0x10] = .ok (.sta (.izy 0x10)) [] ∧
    decode [0x96, 0x10] = .ok (.stx (.zpy 0x10)) [] ∧ decode [0x8C, 0x34, 0x12] = .ok (.sty (.abs 0x1234)) [] := by
  decide

theorem test_decode_transfer_stack :
    decode [0xAA] = .ok .tax [] ∧ decode [0xA8] = .ok .tay [] ∧ decode [0x8A] = .ok .txa [] ∧
    decode [0x98] = .ok .tya [] ∧ decode [0xBA] = .ok .tsx [] ∧ decode [0x9A] = .ok .txs [] ∧
    decode [0x48] = .ok .pha [] ∧ decode [0x08] = .ok .php [] ∧ decode [0x68] = .ok .pla [] ∧
    decode [0x28] = .ok .plp [] := by decide

theorem test_decode_logic_arith :
    decode [0x01, 0x10] = .ok (.ora (.mem (.izx 0x10))) [] ∧ decode [0x29, 0x0F] = .ok (.and (.imm 0x0F)) [] ∧
    decode [0x59, 0x34, 0x12] = .ok (.eor (.mem (.aby 0x1234))) [] ∧
    decode [0x71, 0x10] = .ok (.adc (.mem (.izy 0x10))) [] ∧ decode [0xF5, 0x10] = .ok (.sbc (.mem (.zpx 0x10))) [] ∧
    decode [0xDD, 0x34, 0x12] = .ok (.cmp (.mem (.abx 0x1234))) [] ∧ decode [0xE4, 0x10] = .ok (.cpx (.mem (.zpg 0x10))) [] ∧
    decode [0xC0, 0x10] = .ok (.cpy (.imm 0x10)) [] ∧ decode [0x2C, 0x34, 0x12] = .ok (.bit (.abs 0x1234)) [] := by decide

theorem test_decode_shift_incdec :
    decode [0x0A] = .ok (.asl .acc) [] ∧ decode [0x46, 0x10] = .ok (.lsr (.mem (.zpg 0x10))) [] ∧
    decode [0x36, 0x10] = .ok (.rol (.mem (.zpx 0x10))) [] ∧ decode [0x7E, 0x34, 0x12] = .ok (.ror (.mem (.abx 0x1234))) [] ∧
    decode [0xEE, 0x34, 0x12] = .ok (.inc (.abs 0x1234)) [] ∧ decode [0xD6, 0x10] = .ok (.dec (.zpx 0x10)) [] ∧
    decode [0xE8] = .ok .inx [] ∧ decode [0xC8] = .ok .iny [] ∧ decode [0xCA] = .ok .dex [] ∧
    decode [0x88] = .ok .dey [] := by decide

theorem test_decode_branch_jump :
    decode [0x10, 0xFE] = .ok (.bpl 0xFE) [] ∧ decode [0x30, 0xFE] = .ok (.bmi 0xFE) [] ∧
    decode [0x50, 0xFE] = .ok (.bvc 0xFE) [] ∧ decode [0x70, 0xFE] = .ok (.bvs 0xFE) [] ∧
    decode [0x90, 0xFE] = .ok (.bcc 0xFE) [] ∧ decode [0xB0, 0xFE] = .ok (.bcs 0xFE) [] ∧
    decode [0xD0, 0xFE] = .ok (.bne 0xFE) [] ∧ decode [0xF0, 0xFE] = .ok (.beq 0xFE) [] ∧
    decode [0x4C, 0x34, 0x12] = .ok (.jmp (.abs 0x1234)) [] ∧ decode [0x6C, 0x34, 0x12] = .ok (.jmp (.ind 0x1234)) [] ∧
    decode [0x20, 0x34, 0x12] = .ok (.jsr 0x1234) [] ∧ decode [0x60] = .ok .rts [] := by decide

theorem test_decode_flags_system :
    decode [0x18] = .ok .clc [] ∧ decode [0x38] = .ok .sec [] ∧ decode [0x58] = .ok .cli [] ∧
    decode [0x78] = .ok .sei [] ∧ decode [0xB8] = .ok .clv [] ∧ decode [0xD8] = .ok .cld [] ∧
    decode [0xF8] = .ok .sed [] ∧ decode [0xEA] = .ok .nop [] ∧ decode [0x00] = .ok .brk [] ∧
    decode [0x40] = .ok .rti [] ∧ decode [0xFF, 0x12] = .ok (.ill 0xFF 0x12) [] := by decide

theorem test_decode_rejects_missing_bytes :
    decode [] = .rejected .noBytes ∧ decode [0xA9] = .rejected (.missingOperand 0xA9) ∧
    decode [0x4C, 0x34] = .rejected (.missingOperand 0x4C) := by decide

/-- Table words as the host numbers them: the second byte in bits 15..8. -/
theorem test_table_words :
    decodeTableWord 8 0xA9 = some (.lda (.imm 0x00)) ∧ decodeTableWord 16 0x80A9 = some (.lda (.imm 0x80)) ∧
    decodeTableWord 24 0x12344C = some (.jmp (.abs 0x1234)) := by decide

/-! ## One instruction each, on the start state of 95_test_vectors -/

/-- The start registers of the vectors. -/
def start : Cpu := { Cpu.reset with pc := 0x8000, remainingCycles := 0 }

/-- The cartridge of the vectors: M0, two banks, NMI vector $8010, reset vector $8000, IRQ vector $9000. -/
def vectors : Cart := { Cart.blank with
  prg := [(0x7FFA, 0x10), (0x7FFB, 0x80), (0x7FFD, 0x80), (0x7FFF, 0x90)] }

/-- The machine with the registers `c` and the RAM `ram`. -/
def machine (c : Cpu) (ram : Memory) : State := { State.reset with cpu := c, ram := ram, cart := vectors }

/-- A, X, Y, S and P, then PC, the cycles to debit, and the bytes asked for. -/
def see (r : Result) (ask : List Word) : Option (List Byte × Word × Nat × List Byte) :=
  match r with
  | .next s => some ([s.cpu.a, s.cpu.x, s.cpu.y, s.cpu.sp, s.cpu.p], s.cpu.pc, s.cpu.remainingCycles, ask.map (peek s))
  | .fault _ | .refused _ => none

/-- The instruction whose bytes are given, run on the machine. -/
def runs (bytes : List Byte) (c : Cpu) (ram : Memory) (ask : List Word) : Option (List Byte × Word × Nat × List Byte) :=
  match decode bytes with
  | .ok i _ => see (exec i (machine c ram)) ask
  | .rejected _ => none

/-- V-LS-6. -/
theorem test_lda_aby_wraps : runs [0xB9, 0xFF, 0xFF] { start with y := 0x02 } [(0x0001, 0x99)] [] =
    some ([0x99, 0x00, 0x02, 0xFD, 0xA0], 0x8003, 5, []) := by decide

/-- V-LS-10. -/
theorem test_ldx_zpy_wraps : runs [0xB6, 0x80, 0x00] { start with y := 0x81 } [(0x0001, 0x12)] [] =
    some ([0x00, 0x12, 0x81, 0xFD, 0x20], 0x8002, 4, []) := by decide

/-- V-LS-11. -/
theorem test_ldy_abx_cross : runs [0xBC, 0xF0, 0x02] { start with x := 0x20 } [(0x0310, 0xFF)] [] =
    some ([0x00, 0x20, 0xFF, 0xFD, 0xA0], 0x8003, 5, []) := by decide

/-- V-LS-12. -/
theorem test_sta_abx_fixed : runs [0x9D, 0xFF, 0x00] { start with a := 0x3C, x := 0x01 } [] [0x0100] =
    some ([0x3C, 0x01, 0x00, 0xFD, 0x20], 0x8003, 5, [0x3C]) := by decide

/-- V-LS-13. -/
theorem test_sta_izy : runs [0x91, 0x10, 0x00] { start with a := 0x3C, y := 0xFF } [(0x0010, 0x01), (0x0011, 0x02)] [0x0300] =
    some ([0x3C, 0x00, 0xFF, 0xFD, 0x20], 0x8002, 6, [0x3C]) := by decide

/-- V-LS-14. -/
theorem test_stx_zpy_wraps : runs [0x96, 0xFF, 0x00] { start with x := 0x44, y := 0x01 } [] [0x0000] =
    some ([0x00, 0x44, 0x01, 0xFD, 0x20], 0x8002, 4, [0x44]) := by decide

/-- V-LS-15. -/
theorem test_sty_zpx_wraps : runs [0x94, 0x10, 0x00] { start with y := 0x45, x := 0xF0 } [] [0x0000] =
    some ([0x00, 0xF0, 0x45, 0xFD, 0x20], 0x8002, 4, [0x45]) := by decide

/-- V-LS-7. -/
theorem test_izx_pointer_wraps : runs [0xA1, 0xFE, 0x00] { start with x := 0x01 } [(0x0000, 0x02), (0x00FF, 0x34), (0x0234, 0x5A)] [] =
    some ([0x5A, 0x01, 0x00, 0xFD, 0x20], 0x8002, 6, []) := by decide

/-- V-TS-1. -/
theorem test_tax_zero : runs [0xAA, 0x00, 0x00] { start with x := 0x05 } [] [] =
    some ([0x00, 0x00, 0x00, 0xFD, 0x22], 0x8001, 2, []) := by decide

/-- 41 R192. -/
theorem test_tay : runs [0xA8, 0x00, 0x00] { start with a := 0x90 } [] [] =
    some ([0x90, 0x00, 0x90, 0xFD, 0xA0], 0x8001, 2, []) := by decide

/-- 41 R193. -/
theorem test_txa : runs [0x8A, 0x00, 0x00] { start with x := 0x80 } [] [] =
    some ([0x80, 0x80, 0x00, 0xFD, 0xA0], 0x8001, 2, []) := by decide

/-- 41 R194. -/
theorem test_tya : runs [0x98, 0x00, 0x00] { start with y := 0x80 } [] [] =
    some ([0x80, 0x00, 0x80, 0xFD, 0xA0], 0x8001, 2, []) := by decide

/-- V-TS-3. -/
theorem test_tsx : runs [0xBA, 0x00, 0x00] { start with sp := 0x80 } [] [] =
    some ([0x00, 0x80, 0x00, 0x80, 0xA0], 0x8001, 2, []) := by decide

/-- V-TS-2. -/
theorem test_txs_no_flag : runs [0x9A, 0x00, 0x00] start [] [] =
    some ([0x00, 0x00, 0x00, 0x00, 0x20], 0x8001, 2, []) := by decide

/-- V-TS-4. -/
theorem test_pha_wraps : runs [0x48, 0x00, 0x00] { start with a := 0x12, sp := 0x00 } [] [0x0100] =
    some ([0x12, 0x00, 0x00, 0xFF, 0x20], 0x8001, 3, [0x12]) := by decide

/-- V-TS-5. -/
theorem test_pla_wraps : runs [0x68, 0x00, 0x00] { start with sp := 0xFF } [(0x0100, 0x80)] [] =
    some ([0x80, 0x00, 0x00, 0x00, 0xA0], 0x8001, 4, []) := by decide

/-- V-TS-6. -/
theorem test_php_pushes_b_and_u : runs [0x08, 0x00, 0x00] { start with p := 0xE3 } [] [0x01FD] =
    some ([0x00, 0x00, 0x00, 0xFC, 0xE3], 0x8001, 3, [0xF3]) := by decide

/-- V-TS-7. -/
theorem test_plp_ignores_bits_4_5 : runs [0x28, 0x00, 0x00] { start with sp := 0xFC } [(0x01FD, 0xDF)] [] =
    some ([0x00, 0x00, 0x00, 0xFD, 0xEF], 0x8001, 4, []) := by decide

/-- V-ARI-20. -/
theorem test_ora : runs [0x09, 0xF0, 0x00] { start with a := 0x0F } [] [] =
    some ([0xFF, 0x00, 0x00, 0xFD, 0xA0], 0x8002, 2, []) := by decide

/-- V-ARI-19. -/
theorem test_and : runs [0x29, 0x0F, 0x00] { start with a := 0xF0 } [] [] =
    some ([0x00, 0x00, 0x00, 0xFD, 0x22], 0x8002, 2, []) := by decide

/-- V-ARI-21. -/
theorem test_eor : runs [0x49, 0xAA, 0x00] { start with a := 0xAA } [] [] =
    some ([0x00, 0x00, 0x00, 0xFD, 0x22], 0x8002, 2, []) := by decide

/-- V-ARI-1. -/
theorem test_adc_overflow : runs [0x69, 0x50, 0x00] { start with a := 0x50 } [] [] =
    some ([0xA0, 0x00, 0x00, 0xFD, 0xE0], 0x8002, 2, []) := by decide

/-- V-ARI-2. -/
theorem test_adc_carry_in : runs [0x69, 0x00, 0x00] { start with a := 0xFF, p := 0x21 } [] [] =
    some ([0x00, 0x00, 0x00, 0xFD, 0x23], 0x8002, 2, []) := by decide

/-- V-ARI-6. -/
theorem test_sbc_borrow : runs [0xE9, 0xF0, 0x00] { start with a := 0x50, p := 0x21 } [] [] =
    some ([0x60, 0x00, 0x00, 0xFD, 0x20], 0x8002, 2, []) := by decide

/-- V-ARI-8. -/
theorem test_sbc_overflow : runs [0xE9, 0x01, 0x00] { start with a := 0x80, p := 0x21 } [] [] =
    some ([0x7F, 0x00, 0x00, 0xFD, 0x61], 0x8002, 2, []) := by decide

/-- V-ARI-14. -/
theorem test_cmp_unsigned_carry : runs [0xC9, 0x00, 0x00] { start with a := 0x80 } [] [] =
    some ([0x80, 0x00, 0x00, 0xFD, 0xA1], 0x8002, 2, []) := by decide

/-- V-ARI-15. -/
theorem test_cpx : runs [0xE4, 0x10, 0x00] { start with x := 0x10 } [(0x0010, 0x20)] [] =
    some ([0x00, 0x10, 0x00, 0xFD, 0xA0], 0x8002, 3, []) := by decide

/-- V-ARI-16. -/
theorem test_cpy : runs [0xC0, 0x00, 0x00] { start with y := 0xFF } [] [] =
    some ([0x00, 0x00, 0xFF, 0xFD, 0xA1], 0x8002, 2, []) := by decide

/-- V-ARI-17. -/
theorem test_bit_flags_from_memory : runs [0x24, 0x10, 0x00] { start with a := 0x01 } [(0x0010, 0xC0)] [] =
    some ([0x01, 0x00, 0x00, 0xFD, 0xE2], 0x8002, 3, []) := by decide

/-- V-ARI-18. -/
theorem test_bit_clears : runs [0x2C, 0x00, 0x03] { start with a := 0xFF, p := 0xE0 } [(0x0300, 0x3F)] [] =
    some ([0xFF, 0x00, 0x00, 0xFD, 0x20], 0x8003, 4, []) := by decide

/-- V-SH-7. -/
theorem test_asl_abx_always_7 : runs [0x1E, 0xFF, 0x00] { start with x := 0x01 } [(0x0100, 0x40)] [0x0100] =
    some ([0x00, 0x01, 0x00, 0xFD, 0xA0], 0x8003, 7, [0x80]) := by decide

/-- V-SH-1. -/
theorem test_asl_a : runs [0x0A, 0x00, 0x00] { start with a := 0x81 } [] [] =
    some ([0x02, 0x00, 0x00, 0xFD, 0x21], 0x8001, 2, []) := by decide

/-- V-SH-3. -/
theorem test_lsr_a : runs [0x4A, 0x00, 0x00] { start with a := 0x01 } [] [] =
    some ([0x00, 0x00, 0x00, 0xFD, 0x23], 0x8001, 2, []) := by decide

/-- V-SH-4. -/
theorem test_rol_a : runs [0x2A, 0x00, 0x00] { start with a := 0x40, p := 0x21 } [] [] =
    some ([0x81, 0x00, 0x00, 0xFD, 0xA0], 0x8001, 2, []) := by decide

/-- V-SH-5. -/
theorem test_ror_a : runs [0x6A, 0x00, 0x00] { start with a := 0x01, p := 0x21 } [] [] =
    some ([0x80, 0x00, 0x00, 0xFD, 0xA1], 0x8001, 2, []) := by decide

/-- V-SH-6. -/
theorem test_ror_zpg : runs [0x66, 0x10, 0x00] start [(0x0010, 0x01)] [0x0010] =
    some ([0x00, 0x00, 0x00, 0xFD, 0x23], 0x8002, 5, [0x00]) := by decide

/-- V-SH-8. -/
theorem test_inc_wraps : runs [0xE6, 0x10, 0x00] start [(0x0010, 0xFF)] [0x0010] =
    some ([0x00, 0x00, 0x00, 0xFD, 0x22], 0x8002, 5, [0x00]) := by decide

/-- V-SH-9. -/
theorem test_dec_wraps : runs [0xC6, 0x10, 0x00] start [] [0x0010] =
    some ([0x00, 0x00, 0x00, 0xFD, 0xA0], 0x8002, 5, [0xFF]) := by decide

/-- V-SH-10. -/
theorem test_inx_wraps : runs [0xE8, 0x00, 0x00] { start with x := 0xFF } [] [] =
    some ([0x00, 0x00, 0x00, 0xFD, 0x22], 0x8001, 2, []) := by decide

/-- V-SH-12. -/
theorem test_iny : runs [0xC8, 0x00, 0x00] { start with y := 0x7F } [] [] =
    some ([0x00, 0x00, 0x80, 0xFD, 0xA0], 0x8001, 2, []) := by decide

/-- 43 R239. -/
theorem test_dex : runs [0xCA, 0x00, 0x00] { start with x := 0x01 } [] [] =
    some ([0x00, 0x00, 0x00, 0xFD, 0x22], 0x8001, 2, []) := by decide

/-- V-SH-11. -/
theorem test_dey_wraps : runs [0x88, 0x00, 0x00] start [] [] =
    some ([0x00, 0x00, 0xFF, 0xFD, 0xA0], 0x8001, 2, []) := by decide

/-- V-BR-8. -/
theorem test_bpl_to_itself : runs [0x10, 0xFE, 0x00] start [] [] =
    some ([0x00, 0x00, 0x00, 0xFD, 0x20], 0x8000, 3, []) := by decide

/-- V-BR-5. -/
theorem test_bmi_backward_over_a_page : runs [0x30, 0xFC, 0x00] { start with p := 0xA0 } [] [] =
    some ([0x00, 0x00, 0x00, 0xFD, 0xA0], 0x7FFE, 4, []) := by decide

/-- V-BR-10. -/
theorem test_bvc_page_of_pc0 : runs [0x50, 0x01, 0x00] { start with pc := 0x80FD } [] [] =
    some ([0x00, 0x00, 0x00, 0xFD, 0x20], 0x8100, 4, []) := by decide

/-- V-BR-9. -/
theorem test_bvs_plus_0 : runs [0x70, 0x00, 0x00] { start with p := 0x60 } [] [] =
    some ([0x00, 0x00, 0x00, 0xFD, 0x60], 0x8002, 3, []) := by decide

/-- V-BR-6. -/
theorem test_bcc_largest_forward : runs [0x90, 0x7F, 0x00] start [] [] =
    some ([0x00, 0x00, 0x00, 0xFD, 0x20], 0x8081, 3, []) := by decide

/-- V-BR-7. -/
theorem test_bcs_largest_backward : runs [0xB0, 0x80, 0x00] { start with p := 0x21 } [] [] =
    some ([0x00, 0x00, 0x00, 0xFD, 0x21], 0x7F82, 4, []) := by decide

/-- V-BR-4. -/
theorem test_bne_backward : runs [0xD0, 0xFD, 0x00] { start with pc := 0x8005 } [] [] =
    some ([0x00, 0x00, 0x00, 0xFD, 0x20], 0x8004, 3, []) := by decide

/-- V-BR-1. -/
theorem test_beq_source_scenario_2 : runs [0xF0, 0x01, 0x00] { start with p := 0x22, pc := 0x80FE } [] [] =
    some ([0x00, 0x00, 0x00, 0xFD, 0x22], 0x8101, 4, []) := by decide

/-- V-BR-3. -/
theorem test_beq_not_taken : runs [0xF0, 0x01, 0x00] { start with pc := 0x80FE } [] [] =
    some ([0x00, 0x00, 0x00, 0xFD, 0x20], 0x8100, 2, []) := by decide

/-- 44 R259. -/
theorem test_jmp_abs : runs [0x4C, 0x34, 0x12] start [] [] =
    some ([0x00, 0x00, 0x00, 0xFD, 0x20], 0x1234, 3, []) := by decide

/-- V-BR-11. -/
theorem test_jmp_ind_page_wrap : runs [0x6C, 0xFF, 0x02] start [(0x0200, 0x40), (0x0300, 0x80)] [] =
    some ([0x00, 0x00, 0x00, 0xFD, 0x20], 0x4000, 5, []) := by decide

/-- V-BR-14. -/
theorem test_jsr_wraps : runs [0x20, 0x34, 0x12] { start with sp := 0x00 } [] [0x0100, 0x01FF] =
    some ([0x00, 0x00, 0x00, 0xFE, 0x20], 0x1234, 6, [0x80, 0x02]) := by decide

/-- V-BR-15. -/
theorem test_rts : runs [0x60, 0x00, 0x00] { start with sp := 0xFB } [(0x01FC, 0x02), (0x01FD, 0x80)] [] =
    some ([0x00, 0x00, 0x00, 0xFD, 0x20], 0x8003, 6, []) := by decide

/-- 45 R271. -/
theorem test_clc : runs [0x18, 0x00, 0x00] { start with p := 0x21 } [] [] =
    some ([0x00, 0x00, 0x00, 0xFD, 0x20], 0x8001, 2, []) := by decide

/-- 45 R272. -/
theorem test_sec : runs [0x38, 0x00, 0x00] start [] [] =
    some ([0x00, 0x00, 0x00, 0xFD, 0x21], 0x8001, 2, []) := by decide

/-- 45 R273. -/
theorem test_cli : runs [0x58, 0x00, 0x00] { start with p := 0x24 } [] [] =
    some ([0x00, 0x00, 0x00, 0xFD, 0x20], 0x8001, 2, []) := by decide

/-- V-SY-1. -/
theorem test_sei : runs [0x78, 0x00, 0x00] start [] [] =
    some ([0x00, 0x00, 0x00, 0xFD, 0x24], 0x8001, 2, []) := by decide

/-- V-SY-3. -/
theorem test_clv : runs [0xB8, 0x00, 0x00] { start with p := 0x60 } [] [] =
    some ([0x00, 0x00, 0x00, 0xFD, 0x20], 0x8001, 2, []) := by decide

/-- V-SY-2. -/
theorem test_cld : runs [0xD8, 0x00, 0x00] { start with p := 0x28 } [] [] =
    some ([0x00, 0x00, 0x00, 0xFD, 0x20], 0x8001, 2, []) := by decide

/-- 45 R277. -/
theorem test_sed : runs [0xF8, 0x00, 0x00] start [] [] =
    some ([0x00, 0x00, 0x00, 0xFD, 0x28], 0x8001, 2, []) := by decide

/-- V-SY-4. -/
theorem test_nop : runs [0xEA, 0x00, 0x00] start [] [] =
    some ([0x00, 0x00, 0x00, 0xFD, 0x20], 0x8001, 2, []) := by decide

/-- V-SY-6. -/
theorem test_brk_flags_kept : runs [0x00, 0x00, 0x00] { start with p := 0xE3, pc := 0x80FF } [] [0x01FD, 0x01FC, 0x01FB] =
    some ([0x00, 0x00, 0x00, 0xFA, 0xE7], 0x9000, 7, [0x81, 0x01, 0xF7]) := by decide

/-- V-SY-8. -/
theorem test_rti_software_frame : runs [0x40, 0x00, 0x00] { start with sp := 0xFA, p := 0x24 } [(0x01FB, 0xC3), (0x01FD, 0x90)] [] =
    some ([0x00, 0x00, 0x00, 0xFD, 0xE3], 0x9000, 6, []) := by decide

/-- V-SY-10. -/
theorem test_illegal_ff : runs [0xFF, 0x00, 0x00] { start with a := 0x12, p := 0xA1 } [] [] =
    some ([0x12, 0x00, 0x00, 0xFD, 0xA1], 0x8002, 2, []) := by decide

/-- V-LS-9, V-LS-8, V-LS-5: a pointer that wraps in the zero page, a crossed page, and an uncrossed one. -/
theorem test_effective_addresses :
    (effAddr (.izy 0xFF) (machine start [(0x0000, 0x03)])).ea = 0x0300 ∧
      (effAddr (.izy 0x10) (machine { start with y := 0xFF } [(0x0010, 0x01), (0x0011, 0x02)])).cross = true ∧
      (effAddr (.abx 0x0010) (machine { start with x := 0x01 } [])).cross = false := by decide

/-! ## Exceptions, bus, devices -/

/-- The state an outcome gives. -/
def nextOf (r : Result) : Option State :=
  match r with
  | .next s => some s
  | .fault _ | .refused _ => none

theorem exists_next {r : Result} (h : (nextOf r).isSome = true) : ∃ t, r = .next t := by
  cases r with
  | next t => exact ⟨t, rfl⟩
  | fault e => exact nomatch h
  | refused e => exact nomatch h

/-- The reason of a refusal. -/
def refusalOf (r : Result) : Option Refusal :=
  match r with
  | .refused e => some e
  | .next _ | .fault _ => none

/-- V-INT-1: registers after the entry, its frame, and the latch. `cpuTick` has already debited one cycle of 8. -/
theorem test_nmi_entry :
    let s := machine { start with pc := 0x8005, p := 0xA0 } []
    let t := cpuTick { s with ppu := { s.ppu with nmiLatch := true } }
    see t [0x01FD, 0x01FC, 0x01FB] = some ([0x00, 0x00, 0x00, 0xFA, 0xA4], 0x8010, 7, [0x80, 0x05, 0xA4]) ∧
      (nextOf t).map (·.ppu.nmiLatch) = some false := by decide

/-- M4 after reset on eight PRG banks, its vectors in the last bank; byte k·$2000 of PRG is k + 1. -/
def m4Cart : Cart where
  prgBanks := 8
  chrBanks := 0
  prg := [(0x0000, 0x01), (0x1C000, 0x0F), (0x1E000, 0x10), (0x1FFFF, 0x90)]
  chr := []
  headerMirror := false
  trainerPresent := false
  mapper := .m4 ⟨0, false, false, #v[0, 0, 0, 0, 0, 0, 0, 0], .horizontal, 0, 0, 0, false, false, []⟩

/-- The same with the IRQ line up and the counter enabled. -/
def m4Irq : Cart := { m4Cart with
  mapper := .m4 ⟨0, false, false, #v[0, 0, 0, 0, 0, 0, 0, 0], .horizontal, 0, 0, 0, true, true, []⟩ }

/-- V-INT-2. -/
theorem test_irq_entry :
    let t := cpuTick { machine { start with pc := 0x8005, p := 0x23 } [] with cart := m4Irq }
    see t [0x01FB] = some ([0x00, 0x00, 0x00, 0xFA, 0x27], 0x9000, 6, [0x27]) ∧
      (nextOf t).map (·.cart.irqState) = some false := by decide

/-- V-INT-3: with I = 1 no entry; the byte at $8005 is 0 here, so BRK runs; the line stays up. -/
theorem test_irq_masked :
    let t := cpuTick { machine { start with pc := 0x8005, p := 0x24 } [] with cart := m4Irq }
    (nextOf t).map (fun s => (s.cpu.remainingCycles, s.cart.irqState)) = some (6, true) := by decide

/-- V-SY-9: the event of an illegal opcode. -/
theorem test_illegal_event :
    (nextOf (exec (.ill 0x02 0xFF) (machine start []))).map (·.illegalTrace) = some [⟨0x8000, 0x02⟩] := by decide

/-- V-BUS-4: nine reads of the port. -/
theorem test_controller_reads :
    let s := memWrite { machine start [] with controller0 := 0x91 } 0x4016 0
    (List.range 9).map (fun k => peek (readTimes 0x4016 k s) 0x4016) = [1, 0, 0, 1, 0, 0, 0, 1, 0] := by decide

/-- V-BUS-6. -/
theorem test_unhandled_reads :
    [0x5000, 0x4015, 0x6000].map (peek (machine start [])) = [0, 0, 0] := by decide

/-- V-LS-16: a RAM mirror. -/
theorem test_ram_mirror :
    [0x0005, 0x0805, 0x1005, 0x1805].map (peek (memWrite (machine start []) 0x1805 0x9A)) =
      [0x9A, 0x9A, 0x9A, 0x9A] := by decide

/-- A list of bus writes. -/
def writes (s : State) (l : List (Word × Byte)) : State := l.foldl (fun s x => memWrite s x.1 x.2) s

/-- V-PPU-2: the write, then the two buffered reads after pointing `v` at it again. -/
theorem test_ppudata_buffer :
    let s := writes (machine start []) [(0x2006, 0x21), (0x2006, 0x08), (0x2007, 0xAB), (0x2006, 0x21), (0x2006, 0x08)]
    [0, 1].map (fun k => peek (readTimes 0x2007 k s) 0x2007) = [0x00, 0xAB] ∧
      (readTimes 0x2007 2 s).ppu.v = 0x210A := by decide

/-- V-PPU-3: the palette alias, at once, and through the greyscale mask. -/
theorem test_palette_alias :
    let s := writes (machine start []) [(0x2006, 0x3F), (0x2006, 0x10), (0x2007, 0x2A), (0x2006, 0x3F), (0x2006, 0x00)]
    peek s 0x2007 = 0x2A ∧ peek (memWrite s 0x2001 0x01) 0x2007 = 0x20 := by decide

/-- V-PPU-4. -/
theorem test_ppustatus_read :
    let s := machine start []
    let x := memRead { s with ppu := { s.ppu with status := 0xE0, addressLatch := true } } 0x2002
    (x.1, x.2.ppu.status, x.2.ppu.addressLatch) = (0xE0, 0x60, false) := by decide

/-- V-PPU-5. -/
theorem test_nametable_banks :
    [0x2C05, 0x2805, 0x2405].map (nametableIndex .horizontal) = [1024 + 5, 1024 + 5, 5] ∧
      [0x2C05, 0x2805, 0x2405].map (nametableIndex .vertical) = [1024 + 5, 5, 1024 + 5] := by decide

/-- V-PPU-6: `fineX`, `coarseX`, `fineY`, `coarseY`. -/
theorem test_ppuscroll :
    let p := (writes (machine start []) [(0x2005, 0x7D), (0x2005, 0x5E)]).ppu
    (p.fineX, coarseX p.t, fineY p.t, coarseY p.t) = (5, 15, 6, 11) := by decide

/-- V-PPU-8 and V-PPU-9, `v` written as fineY, nametableY, nametableX, coarseY, coarseX. -/
theorem test_scroll_steps :
    let at' (v : BitVec 15) : Ppu := { Ppu.reset with v := v, mask := 0x08 }
    (at' 0x001F).scrollX.v = 0x0400 ∧ (at' 0x73A0).scrollY.v = 0x0800 ∧ (at' 0x73E0).scrollY.v = 0x0000 := by decide

/-- V-PPU-11: nine sprites on one line. -/
theorem test_sprite_overflow :
    let p := { Ppu.reset with
      oam := (List.range 9).map (fun n => (4 * n, 30)) ++ (List.range 55).map (fun n => (36 + 4 * n, 0xFF)),
      scanline := 30 }.spriteEvaluate
    (p.spriteCount, p.spriteOverflow, p.zeroHitPossible) = (8, true, true) := by decide

/-- R418 by hand: y = 30 on scanline 31 is row 1; flipped, row 6 of tile 2 in table 1; 8×16, row 14 of tile pair 2. -/
theorem test_sprite_address :
    let u : SpriteUnit := ⟨30, 2, 0x80, 0, 0, 0⟩
    { Ppu.reset with scanline := 31, ctrl := 0x08 }.spriteAddr u = 0x1026 ∧
      { Ppu.reset with scanline := 31, ctrl := 0x20 }.spriteAddr u = 0x0036 := by decide

/-- R420 to R423 by hand: background pixel 1 of palette 2 at column 0 shows $3F09, and a sprite pixel 3 of palette 5 in
front of it $3F17. -/
theorem test_composition :
    let p := { Ppu.reset with
      mask := 0x1E, cycle := 1, shiftPatternLo := 0x8000, shiftAttribHi := 0x8000
      sprites := [⟨0, 0, 0x01, 0, 0x80, 0x80⟩] }
    paletteAddr (combine p.bgPixel p.fgPixel) = 0x3F09 ∧
      paletteAddr (combine p.bgPixel { p with spriteCount := 1 }.fgPixel) = 0x3F17 := by decide

/-- V-APU-1. -/
theorem test_lfsr :
    (List.range 8).map (fun k => times lfsrNext (k + 1) 0xDBDB) =
      [0x6DED, 0x76F6, 0x7B7B, 0x3DBD, 0x5EDE, 0x6F6F, 0x37B7, 0x1BDB] := by decide

/-- V-APU-2. -/
theorem test_envelope :
    let e : Envelope := ⟨true, false, 0, 0, 2, 0⟩
    (List.range 4).map (fun k => ((times (·.clock false) (k + 1) e).decay, (times (·.clock false) (k + 1) e).divider)) =
      [(15, 2), (15, 1), (15, 0), (14, 2)] := by decide

/-- V-APU-8. -/
theorem test_pulse_timer_write :
    let p := (writes (machine start []) [(0x4002, 0xFD), (0x4003, 0x08)]).apu.pulse1
    (p.sequencer.reload, p.sequencer.timer, p.lengthCounter, p.envelope.start) = (0x0FD, 0x0FD, 254, true) := by decide

/-- V-MAP-1. -/
theorem test_one_bank_twice : m0PrgOffset 1 0xC123 = 0x0123 ∧ m0PrgOffset 1 0xFFFA = 0x3FFA := by decide

/-- M1 after reset on eight PRG banks. -/
def m1Cart : Cart := { m4Cart with mapper := .m1 ⟨0, 0, 0x1C, 0, 0, 0, []⟩ }

/-- R521 by hand: the ends of the window are two cells of M1's RAM. -/
theorem test_mmc1_ram :
    let s := writes { machine start [] with cart := m1Cart } [(0x6000, 0x12), (0x7FFF, 0x34)]
    peek s 0x6000 = 0x12 ∧ peek s 0x7FFF = 0x34 ∧ peek s 0x6001 = 0 ∧ cartRam s = some [(0x0000, 0x12), (0x1FFF, 0x34)] := by
  decide

/-- V-MAP-2 and V-MAP-3. -/
theorem test_mmc1_prg :
    let c0 := Cart.cpuMapRead m1Cart false
    let s := writes { machine start [] with cart := m1Cart }
      [(0xE000, 1), (0xE000, 1), (0xE000, 0), (0xE000, 0), (0xE000, 0)]
    c0 0x8000 = .prg 0 ∧ c0 0xC000 = .prg 0x1C000 ∧ c0 0xFFFC = .prg 0x1FFFC ∧
      s.cart.cpuMapRead false 0x8000 = .prg 0x0C000 := by decide

/-- S4: the control register after the reset write and five writes. -/
theorem test_mmc1_serial :
    (writes { machine start [] with cart := m1Cart }
      [(0x8000, 0x80), (0x8000, 1), (0x8000, 0), (0x8000, 1), (0x8000, 1), (0x8000, 0)]).cart.mapper =
      .m1 ⟨0, 0, 0x0D, 0, 0, 0, []⟩ := by decide

/-- M2 after reset on eight PRG banks. -/
def m2Cart : Cart := { m4Cart with mapper := .m2 ⟨0, 7⟩ }

/-- V-MAP-6. -/
theorem test_uxrom_prg :
    let c := (memWrite { machine start [] with cart := m2Cart } 0x8000 0x05).cart
    c.cpuMapRead false 0x8000 = .prg 0x14000 ∧ c.cpuMapRead false 0xC000 = .prg 0x1C000 := by decide

/-- V-MAP-7 and V-MAP-8. -/
theorem test_mmc3_prg :
    let at' (c : Cart) := [0x8000, 0xA000, 0xC000, 0xE000].map (c.cpuMapRead false)
    at' m4Cart = [.prg 0x00000, .prg 0x00000, .prg 0x1C000, .prg 0x1E000] ∧
      at' (writes { machine start [] with cart := m4Cart } [(0x8000, 0x46), (0x8001, 0x05)]).cart =
        [.prg 0x1C000, .prg 0x00000, .prg 0x0A000, .prg 0x1E000] := by decide

/-- V-MAP-9: with `chr_invert`, window 0 has the bank of window 4. -/
theorem test_mmc3_chr :
    let r : Mmc3 := ⟨0, false, true, #v[0, 0, 7, 0, 0, 0, 0, 0], .horizontal, 0, 0, 0, false, false, []⟩
    { m4Cart with mapper := .m4 r }.chrOffset 0x0000 = 0x1C00 := by decide

/-- R524 by hand: 4 KiB mode with banks 2 and 5 of a 32 KiB store, and 8 KiB mode, which drops bit 0 of bank 3. -/
theorem test_mmc1_chr :
    let c (control b0 : BitVec 5) : Cart := { m1Cart with chrBanks := 4, mapper := .m1 ⟨0, 0, control, b0, 5, 0, []⟩ }
    (c 0x1C 2).chrOffset 0x0010 = 0x2010 ∧ (c 0x1C 2).chrOffset 0x1010 = 0x5010 ∧
      (c 0x0C 3).chrOffset 0x1010 = 0x3010 := by decide

/-- V-MAP-10: the counter and the line over eight scanlines. -/
theorem test_mmc3_counter :
    let r : Mmc3 := ⟨0, false, false, #v[0, 0, 0, 0, 0, 0, 0, 0], .horizontal, 0, 3, 0, true, false, []⟩
    (List.range 8).map (fun k => (times Mmc3.scanlineTick (k + 1) r).irqCounter) = [3, 2, 1, 0, 3, 2, 1, 0] ∧
      (List.range 8).map (fun k => (times Mmc3.scanlineTick (k + 1) r).irqActive) =
        [false, false, false, true, true, true, true, true] := by decide

/-- R467, R468 by hand: period $100 and shift 1 give a change of $80; channel 1 moves one further; $400 doubled is muted. -/
theorem test_sweep :
    let p (reload : Word) (down : Bool) : Pulse := { Pulse.reset with
      sequencer := ⟨0x40, reload, 0, false⟩, sweeper := ⟨true, down, false, false, 1, 0, 5, 0⟩ }
    let swept (q : Pulse) (ch : Word) : Word × Bool × BitVec 3 :=
      let r := q.trackSweep.sweepClock ch
      (r.sequencer.reload, r.sweeper.muted, r.sweeper.timer)
    swept (p 0x100 false) 0 = (0x180, false, 5) ∧ swept (p 0x100 true) 1 = (0x07F, false, 5) ∧
      swept { p 0x400 false with sweeper := ⟨true, false, false, false, 0, 0, 5, 0⟩ } 0 = (0x400, false, 5) ∧
      swept (p 0x600 false) 0 = (0x900, true, 5) ∧ swept (p 0x007 false) 0 = (0x007, true, 5) := by decide

/-- R465 by hand: at the underflow the pattern $41 rotates right to $A0, bit 0 is the output; else the timer counts. -/
theorem test_pulse_sequencer :
    let p (timer : Word) : Pulse := { Pulse.reset with enable := true, sequencer := ⟨0x41, 0x123, timer, true⟩ }
    (p 0).seqClock.sequencer = ⟨0xA0, 0x123, 0x123, false⟩ ∧ (p 1).seqClock.sequencer = ⟨0x41, 0x123, 0, true⟩ := by decide

/-- A PPU at dot 9 of scanline 31 with an opaque background and an opaque pixel of sprite 0. -/
def hitting : Ppu := { Ppu.reset with
  mask := 0x1E, scanline := 31, cycle := 9, shiftPatternLo := 0xFFFF, spriteCount := 1, zeroHitPossible := true
  sprites := ⟨30, 0, 0, 0, 0xFF, 0⟩ :: List.replicate 7 ⟨0xFF, 0xFF, 0xFF, 0xFF, 0, 0⟩ }

/-- R422 and the left-edge masking: a hit at dot 9 whatever the left flags are, at dot 8 only with both. -/
theorem test_sprite_zero_hit :
    let hit (p : Ppu) : Bool := (ppuTick p vectors).1.status.getLsbD 6
    hit hitting = true ∧ hit { hitting with mask := 0x18 } = true ∧ hit { hitting with cycle := 8 } = true ∧
      hit { hitting with cycle := 8, mask := 0x1A } = false ∧ hit { hitting with zeroHitPossible := false } = false ∧
      hit { hitting with shiftPatternLo := 0 } = false ∧ hit { hitting with mask := 0x0E } = false := by decide

/-! ## Witnesses: states and operands that meet the hypotheses of the statements -/

/-- DecodeEncodeRoundTrip: forms at both ends. -/
theorem witness_wellFormed :
    (Instr.ora (.mem (.izx 0xFF))).WellFormed ∧ (Instr.ill 0x02 0x00).WellFormed ∧ (Instr.ill 0xFF 0xFF).WellFormed := by
  decide

/-- IllegalOpcodesAreTheListedBytes: each of its premises. -/
theorem witness_illegal :
    (0xFF : Byte) &&& 3 = 3 ∧ (0x02 : Byte) ∈ illegalOpcodes ∧ ∃ x y, decodeBytes 0x02 0 0 = .ill x y :=
  ⟨by decide, by decide, 0x02, 0x00, by decide⟩

/-- A machine at a boundary in which `LDA #$80` lies at $8000. -/
def ready : State := { machine start [] with
  cart := { vectors with prg := [(0x0000, 0xA9), (0x0001, 0x80), (0x7FFD, 0x80)] } }

/-- StepRunsTheDecodedInstruction. -/
theorem witness_step :
    ready.cart.valid = true ∧ ready.systemClock % 3 = 0 ∧ ready.dma.transfer = false ∧ ready.cpu.remainingCycles = 0 ∧
      (devicesTick ready).ppu.nmiLatch = false ∧
      ¬ ((devicesTick ready).cart.irqState = true ∧ flag (devicesTick ready).cpu.p .I = false) ∧
      (∀ k < (Instr.lda (.imm 0x80)).size, ¬ SideEffect (ready.cpu.pc + BitVec.ofNat 16 k)) ∧
      decode [peek (devicesTick ready) ready.cpu.pc, peek (devicesTick ready) (ready.cpu.pc + 1),
        peek (devicesTick ready) (ready.cpu.pc + 2)] = .ok (.lda (.imm 0x80)) [0x00] := by decide

/-- And that step runs it: A = $80, PC = $8002, one of its two cycles debited. -/
theorem test_step_runs_lda :
    (nextOf (step ready)).map (fun t => (t.cpu.a, t.cpu.pc, t.cpu.remainingCycles)) = some (0x80, 0x8002, 1) := by decide

/-- The step of `witness_step` answers a next state: for the statements about every step, beside those below. -/
theorem witness_next : ∃ t, step ready = .next t := exists_next (by decide)

/-- withFetchWord from reset: the very next step runs the word (NOP: PC moves by one). -/
theorem test_withFetchWord :
    (nextOf (step (State.reset.withFetchWord 8 0xEA))).map (fun t => (t.cpu.opcode, t.cpu.remainingCycles)) =
      some (0xEA, 1) := by decide

/-- RamIsMirroredEvery0800 at both ends of the region, mirrors and a stranger. -/
theorem witness_ram :
    (0x0000 : Word) ≤ 0x1FFF ∧ (0x1FFF : Word) ≤ 0x1FFF ∧ SameCell 0x1FFF 0x07FF ∧ ¬ SameCell 0x1FFF 0x2000 := by decide

/-- UnhandledAddressesReadZero: the ends of its three ranges; on M0 the third applies, on M4 without the parameter too. -/
theorem witness_unhandled :
    ((0x4000 : Word) ≤ 0x4000 ∧ (0x4015 : Word) ≤ 0x4015) ∧ ((0x4018 : Word) ≤ 0x5FFF ∧ (0x5FFF : Word) ≤ 0x5FFF) ∧
      ((0x6000 : Word) ≤ 0x7FFF ∧ (0x7FFF : Word) ≤ 0x7FFF) ∧ vectors.mapper = .m0 ∧
      (∃ r, m4Cart.mapper = .m4 r) ∧ Config.default.m4PrgRam = false :=
  ⟨by decide, by decide, by decide, rfl, ⟨_, rfl⟩, rfl⟩

/-- ReadsAffectOnlyTheirDevice: an address for each clause, at the ends of the PPU's range. -/
theorem witness_reads :
    ¬ SideEffect 0x2004 ∧ SideEffect 0x2002 ∧ SideEffect 0x3FFF ∧ PpuRange 0x2000 ∧ PpuRange 0x3FFF ∧
      ¬ PpuRange 0x1FFF ∧ ¬ PpuRange 0x4000 := by decide

/-- WritesReachOnlyTheirRegion and every store: an address a write does not reach, for each kind of region. -/
theorem witness_store_reaches :
    ¬ StoreReaches 0x0000 0x0001 ∧ ¬ StoreReaches 0x1FFF 0x0800 ∧ ¬ StoreReaches 0x2007 0x4016 ∧
      ¬ StoreReaches 0x6000 0x6001 ∧ ¬ StoreReaches 0xFFFF 0x7FFF ∧ ¬ StoreReaches 0x4014 0x2004 ∧
      SameCell 0x0001 0x1801 := by
  simp only [StoreReaches]
  exact ⟨by decide, by decide, by decide, by decide, by decide, by decide, by decide⟩

/-- WritesReachOnlyTheirRegion: the cartridge RAM of M1, and of M4 with the parameter alone, and the window's ends. -/
theorem witness_cart_ram :
    let s (c : Cart) (ram : Bool) : State :=
      { machine start [] with cart := c, config := { Config.default with m4PrgRam := ram } }
    cartRam (s m1Cart false) = some [] ∧ cartRam (s m4Cart true) = some [] ∧ cartRam (s m4Cart false) = none ∧
      (0x6000 : Word) ≤ 0x6000 ∧ (0x7FFF : Word) ≤ 0x7FFF := by decide

/-- The read instructions' memory clause: an operand that spares an address with and without a side effect. -/
theorem witness_operand_spares :
    OperandSpares (.mem (.abs 0x0010)) (machine start []) 0x0010 ∧
      OperandSpares (.mem (.abs 0x2002)) (machine start []) 0x4016 ∧ OperandSpares (.imm 0x80) (machine start []) 0x2002 :=
  ⟨fun h => absurd h (by decide), fun _ => by decide, trivial⟩

/-- OverflowIsSignedOverflow. -/
theorem witness_overflow :
    (∃ t, exec (.adc (.imm 0x50)) (machine start []) = .next t) ∧ ∃ t, exec (.sbc (.imm 0xF0)) (machine start []) = .next t :=
  ⟨⟨_, rfl⟩, ⟨_, rfl⟩⟩

/-- ReturnsUndoTheirEntries: both pairs run, from a status at rest. -/
theorem witness_returns :
    (∃ t u, exec (.jsr 0x1234) (machine start []) = .next t ∧ exec .rts t = .next u) ∧
      Cpu.StatusAtRest (machine start []).cpu ∧
      ∃ t u, exec .brk (machine start []) = .next t ∧ exec .rti t = .next u :=
  ⟨⟨_, _, rfl, rfl⟩, by decide, ⟨_, _, rfl, rfl⟩⟩

/-- JumpTakesItsTarget: the memory clause, at the page end. -/
theorem witness_jump : ¬ SideEffect 0x02FF ∧ ¬ SideEffect 0x0200 := by decide

/-- IllegalOpcodesAreRecordedNops: both policies. -/
theorem witness_policies :
    Config.default.illegalPolicy = .nop2 ∧ { Config.default with illegalPolicy := .refuse }.illegalPolicy = .refuse := by
  decide

/-- InterruptsAreTakenAtBoundaries: both clauses; with both lines up the second does not apply. -/
theorem witness_interrupts :
    let s := { machine start [] with cart := m4Irq }
    s.cpu.remainingCycles = 0 ∧ { s.ppu with nmiLatch := true }.nmiLatch = true ∧ s.ppu.nmiLatch = false ∧
      s.cart.irqState = true ∧ flag s.cpu.p .I = false := by decide

/-- EventsOccupyTheirCycles: an event of 2 cycles (k = 1 and 2), one of 8, and a tick that is no CPU cycle. -/
theorem witness_events :
    (nextOf (boundary ready)).map (·.cpu.remainingCycles) = some 2 ∧
      (nextOf (boundary { ready with ppu := { ready.ppu with nmiLatch := true } })).map (·.cpu.remainingCycles) = some 8 ∧
      { ready with systemClock := 1 }.systemClock % 3 ≠ 0 ∧ ∃ t, step { ready with systemClock := 1 } = .next t :=
  ⟨by decide, by decide, by decide, ⟨_, rfl⟩⟩

/-- InterruptLinesRiseOnlyAtTheirDots: a step in which the latch rises, and one in which the IRQ line rises. -/
theorem witness_lines :
    (nextOf (step { ready with systemClock := 1, ppu := { ready.ppu with scanline := 241, cycle := 1, ctrl := 0x80 } })).map
        (·.ppu.nmiLatch) = some true ∧
      (nextOf (step { ready with
        systemClock := 1
        ppu := { ready.ppu with scanline := 239, cycle := 260, mask := 0x10 }
        cart := { m4Cart with
          mapper := .m4 ⟨0, false, false, #v[0, 0, 0, 0, 0, 0, 0, 0], .horizontal, 0, 0, 0, true, false, []⟩ } })).map
        (·.cart.irqState) = some true := by decide

/-- InterruptLinesRiseOnlyAtTheirDots: the hook's dot on the pre-render and the last visible scanline, with either layer;
the next scanline and rendering off are without it. -/
theorem witness_hook :
    let hooks (scanline : Int) (mask : Byte) : Prop :=
      (260 : Nat) = 260 ∧ scanline ≤ 239 ∧ (mask.getLsbD 3 = true ∨ mask.getLsbD 4 = true)
    hooks (-1) 0x08 ∧ hooks 239 0x10 ∧ ¬ hooks 240 0x08 ∧ ¬ hooks 239 0x06 := by decide

/-- EventsOccupyTheirCycles: a CPU cycle and a DMA cycle. -/
theorem witness_slots :
    ready.cart.valid = true ∧ ready.systemClock % 3 = 0 ∧ ready.dma.transfer = false ∧
      { ready with dma := ⟨2, 0, 0, true, true⟩ }.dma.transfer = true := by decide

/-- OamDmaCopiesAPage: pages at both sides of the devices, at an even and at an odd first cycle. -/
theorem witness_dma :
    let s (page : Byte) (clock : Nat) : State :=
      { ready with dma := ⟨page, 0, 0, true, true⟩, systemClock := clock }
    ∀ x ∈ [((0x1F : Byte), 0), (0x1F, 3), (0x41, 0), (0xFF, 3)],
      (s x.1 x.2).cart.valid = true ∧ (s x.1 x.2).dma.transfer = true ∧ (s x.1 x.2).dma.dummy = true ∧
        (s x.1 x.2).dma.addr = 0 ∧ (s x.1 x.2).systemClock % 3 = 0 ∧
        ((s x.1 x.2).dma.page < 0x20 ∨ 0x40 < (s x.1 x.2).dma.page) := by decide

/-- ResetInitialises, PrgWindowsSelectTheirBanks: a valid cartridge of every mapper, and the ends of the windows. -/
theorem witness_valid :
    vectors.valid = true ∧ m1Cart.valid = true ∧ m2Cart.valid = true ∧ m4Cart.valid = true ∧
      (0x8000 : Word) ≤ 0x8000 ∧ (0x8000 : Word) ≤ 0xFFFF ∧ (0x1FFF : Word) ≤ 0x1FFF ∧
      { m4Cart with chrBanks := 1 }.chrBanks ≠ 0 := by decide

/-- FirstInstructionFollows24Ticks: the reset of `ready`, whose reset vector leads to `LDA #$80`. -/
theorem witness_first_instruction :
    let r := busReset ready
    ready.cart.valid = true ∧ (∀ k < (Instr.lda (.imm 0x80)).size, ¬ SideEffect (r.cpu.pc + BitVec.ofNat 16 k)) ∧
      decode [peek r r.cpu.pc, peek r (r.cpu.pc + 1), peek r (r.cpu.pc + 2)] = .ok (.lda (.imm 0x80)) [0x00] := by decide

/-- StepsKeepTheInvariant: `ready` is sound and its step answers a next state (`witness_next`). -/
theorem witness_invariant : Inv ready where
  status := by decide
  counters := by decide
  sprites := by decide
  ram := rfl
  ppuStores := by decide
  cart := ⟨by decide, rfl, trivial⟩
  frameCounter := by decide
  apuClock := rfl

/-- StepsKeepTheInvariant: sound cartridges with mapper RAM to swap in and to build from. -/
theorem witness_sound_cart :
    Cart.Sound { m1Cart with mapper := .m1 ⟨1, 4, 0x1C, 0, 0, 0, [(0x1FFF, 0x34)]⟩ } ∧ Cart.Sound m4Cart :=
  ⟨⟨rfl, rfl, rfl, by decide⟩, rfl, rfl, rfl⟩

/-- StepsNeverChangeTheParameters: steps on every mapper, with CHR ROM. -/
theorem witness_parameters :
    (∃ t, step { ready with cart := { m1Cart with chrBanks := 1 } } = .next t) ∧
      (∃ t, step { ready with cart := { m2Cart with chrBanks := 1 } } = .next t) ∧
      ∃ t, step { ready with cart := { m4Cart with chrBanks := 1 } } = .next t :=
  ⟨exists_next (by decide), exists_next (by decide), exists_next (by decide)⟩

/-- EveryStepCompletes: the stop happens, with $02 at PC under the policy `refuse`. -/
theorem witness_refused_step :
    refusalOf (step { ready with
      config := { ready.config with illegalPolicy := .refuse }
      cart := { ready.cart with prg := [(0x0000, 0x02)] } }) = some (.illegalOpcode 0x8000 0x02) := by decide

/-- SoundNeverReachesTheMachine: two states that differ in the sound, and a run of one. -/
theorem witness_sound :
    SameButSound ready { ready with audioTime := 1 } ∧ ∃ s', Host.Core.run Sys2Proof.core 1 ready = .next s' :=
  ⟨rfl, ⟨_, rfl⟩⟩

/-- PpuRegisterReads and PpuRegisterWrites: an address of each register, mirrors at the end of the range, both latches. -/
theorem witness_ppu_registers :
    [0x2000, 0x2001, 0x2002, 0x2003, 0x2004, 0x2005, 0x2006, 0x2007, 0x3FF8, 0x3FFF].all (fun a => decide (PpuRange a)) ∧
      (0x3FF8 : Word).toNat % 8 = 0 ∧ (0x3FFF : Word).toNat % 8 = 7 ∧ Ppu.reset.addressLatch = false ∧
      { Ppu.reset with addressLatch := true }.addressLatch = true := by decide

/-- PpuBusReadsBackItsWrites: equal and different cells of each region, the ends of the nametables, a mirror mode that
overrides the header. -/
theorem witness_video_cells :
    (SameVideoCell vectors 0x1FFF 0x5FFF ∧ ¬ SameVideoCell vectors 0x1FFF 0x1FFE) ∧
      (SameVideoCell vectors 0x2000 0x3400 ∧ ¬ SameVideoCell vectors 0x2000 0x2800) ∧
      (SameVideoCell vectors 0x3F10 0x3F00 ∧ ¬ SameVideoCell vectors 0x3F11 0x3F01) ∧
      ¬ SameVideoCell { vectors with chrBanks := 1 } 0x1FFF 0x1FFF ∧ (0x2000 : Word) ≤ 0x3EFF ∧
      MirrorMode.horizontal ≠ .hardwareDefined := by
  have h : vectors.mirrorMode = .horizontal := by decide
  have h' : { vectors with chrBanks := 1 }.mirrorMode = .horizontal := by decide
  simp only [SameVideoCell, SameNametable, chrCell, chrWindow, chrBytes, h, h']
  exact ⟨by decide, by decide, by decide, by decide, by decide, by decide⟩

/-- DotCountersRunTheFrame: a dot in range, one that is skipped, the last of the frame. -/
theorem witness_dots :
    Ppu.CountersInRange Ppu.reset ∧ SkipsDot { Ppu.reset with oddFrame := true, mask := 0x08 } ∧ ¬ SkipsDot Ppu.reset ∧
      Ppu.CountersInRange { Ppu.reset with scanline := 260, cycle := 340 } := by
  unfold SkipsDot
  decide

/-- StatusFlagsFollowTheDots, VideoAddressFollowsTheDots, FramebufferIsWrittenByComposedDotsOnly: the dots they name do
not exclude each other wrongly: the rising and the clearing dot differ, and a column dot is neither 257 nor vertical. -/
theorem witness_dot_clauses :
    OnFetchLine { Ppu.reset with scanline := -1 } ∧ OnFetchLine { Ppu.reset with scanline := 239 } ∧
      ¬ OnFetchLine { Ppu.reset with scanline := 240 } ∧ { Ppu.reset with mask := 0x10 }.rendering = true ∧
      (∀ c ∈ [8, 256, 328, 336], ((2 ≤ c ∧ c ≤ 257) ∨ (321 ≤ c ∧ c ≤ 337)) ∧ (c - 1) % 8 = 7 ∧ c ≠ 257) ∧
      ¬ (257 - 1) % 8 = 7 ∧ ComposesCell { Ppu.reset with cycle := 1 } 0 ∧
      ComposesCell { Ppu.reset with scanline := 239, cycle := 256 } 61439 ∧ ¬ ComposesCell Ppu.reset 0 := by
  unfold OnFetchLine ComposesCell
  decide

/-- StatusFlagsFollowTheDots: a dot that sets the hit flag, one that finds nine entries in range, and one that finds eight. -/
theorem witness_sprite_flags :
    let p (n : Nat) : Ppu := { Ppu.reset with cycle := 257, oam := (List.range (64 - n)).map fun k => (4 * k, 0xFF) }
    ZeroHits (hitting.linePhase vectors) ∧ EvaluatesSprites (p 9) ∧ (evalLoop (p 9)).matched = 9 ∧
      (evalLoop (p 8)).matched = 8 := by
  refine ⟨⟨by decide, ⟨_, _, rfl, by decide, by decide⟩, by decide, by decide, by decide, by decide⟩, ?_, by decide,
    by decide⟩
  exact ⟨by decide, by decide, by decide⟩

/-- SpriteEvaluationIsTheSpecsLoop: units in use and not in a shifting and in a fetching dot, the rows 0 and h - 1. -/
theorem witness_sprite_cache :
    ShiftsSprites hitting ∧ FetchesSprites { hitting with cycle := 340 } ∧
      ¬ ShiftsSprites { hitting with cycle := 340 } ∧ ¬ FetchesSprites hitting ∧ ¬ EvaluatesSprites hitting ∧
      (∃ u, hitting.sprites[0]? = some u ∧ 0 < hitting.spriteCount ∧ (u.y.toNat : Int) ≤ 30 ∧
        (37 : Int) < u.y.toNat + spriteLines hitting) ∧ ∃ u, hitting.sprites[1]? = some u ∧ hitting.spriteCount ≤ 1 := by
  unfold ShiftsSprites FetchesSprites EvaluatesSprites OnFetchLine
  exact ⟨by decide, by decide, by decide, by decide, by decide, ⟨_, rfl, by decide, by decide, by decide⟩, _, rfl, by decide⟩

/-- Mmc1LoadsAfterFiveWrites, Mmc3RegistersByPair, Mmc3CountsScanlines: the mapper states and a latch above 0. -/
theorem witness_mappers :
    m1Cart.mapper = .m1 ⟨0, 0, 0x1C, 0, 0, 0, []⟩ ∧ (0x80 : Byte).getLsbD 7 = true ∧ (0x01 : Byte).getLsbD 7 = false ∧
      (∃ r, m4Cart.mapper = .m4 r ∧ r.irqCounter = 0 ∧ r.irqActive = false ∧
        { r with irqLatch := 3 }.irqLatch.toNat = 3) ∧
      (∀ a ∈ [((0x8000 : Word), 0), (0xBFFE, 1), (0xC001, 2), (0xFFFF, 3)], a.1.toNat / 0x2000 % 4 = a.2) :=
  ⟨rfl, by decide, by decide, ⟨_, rfl, rfl, rfl, rfl⟩, by decide⟩

/-- ApuRegistersByAddress: the ends of its ranges. -/
theorem witness_apu_addresses :
    ([0x4000, 0x4003, 0x4004, 0x4007, 0x4013, 0x4015] : List Word).all
      (fun a => decide ((0x4000 ≤ a ∧ a ≤ 0x4013) ∨ a = 0x4015)) := by decide

/-- ApuFrameSequencerClocksItsUnits: an idle tick, steps of each kind, an envelope at its reload, an LFSR value. -/
theorem witness_apu :
    { Apu.reset with apuClock := 1 }.apuClock % 6 ≠ 0 ∧ { Apu.reset with frameCounter := 14915 }.apuClock % 6 = 0 ∧
      { Apu.reset with frameCounter := 14915 }.frameCounter ≤ 14915 ∧
      (let e : Envelope := ⟨false, false, 2, 15, 2, 0⟩
       e.start = false ∧ e.divider = e.volume ∧ 0 < e.decay) ∧ (0xDBDB : BitVec 32).toNat < 2 ^ 16 ∧
      ready.config.speed ≠ 0 ∧ ready.config.sampleRate ≠ 0 ∧ ∃ t, step ready = .next t :=
  ⟨by decide, by decide, by decide, by decide, by decide, by decide, by decide, _, rfl⟩

/-- ApuFrameSequencerClocksItsUnits: a half frame and a tick that is none; a pulse and a noise channel in each case of
the units' clocks. -/
theorem witness_apu_units :
    let p (timer : Word) (enable : Bool) (divider : BitVec 3) : Pulse := { Pulse.reset with
      enable := enable, sequencer := ⟨0x40, 0x100, timer, false⟩
      sweeper := ⟨true, false, false, false, 1, divider, 5, 0⟩, envelope := ⟨false, false, 1, 0, 2, 0⟩ }
    ((7456 + 1 = 7457) ∧ ¬ (0 + 1 = 7457)) ∧ ((p 0 true 0).enable = true ∧ (p 0 true 0).sequencer.timer = 0) ∧
      ((p 1 true 0).sequencer.timer ≠ 0 ∧ (p 0 false 0).enable = false) ∧
      ((p 0 true 0).sweeper.timer = 0 ∧ (p 0 true 1).sweeper.timer ≠ 0 ∧ (p 0 true 1).sweeper.reload = false) ∧
      ((p 0 true 0).envelope.start = false ∧ (p 0 true 0).envelope.divider ≠ 0) ∧
      ({ Noise.reset with enable := true }.enable = true ∧ { Noise.reset with enable := true }.sequencer.timer = 0) := by
  decide

end Sys2Proof.Tests
end

/-! 00_scope: what no step changes. `paramsKept_step` says it through `Mapper.SameKind`; here that relation is read off
per mapper variant, as the obligation does. -/

namespace Sys2Proof.Machine

/-! ## The mappers of one kind with a given mapper -/

theorem Mapper.sameKind_m0_iff {n : Mapper} : Mapper.SameKind .m0 n ↔ n = .m0 := by
  cases n <;> simp [Mapper.SameKind]

theorem Mapper.sameKind_m1_iff {q : Mmc1} {n : Mapper} : Mapper.SameKind (.m1 q) n ↔ ∃ r, n = .m1 r := by
  cases n <;> simp [Mapper.SameKind]

theorem Mapper.sameKind_m2_iff {q : Uxrom} {n : Mapper} :
    Mapper.SameKind (.m2 q) n ↔ ∃ r, n = .m2 r ∧ r.prgBankHi = q.prgBankHi := by
  cases n <;> simp [Mapper.SameKind]

theorem Mapper.sameKind_m4_iff {q : Mmc3} {n : Mapper} : Mapper.SameKind (.m4 q) n ↔ ∃ r, n = .m4 r := by
  cases n <;> simp [Mapper.SameKind]

/-- Settles O44: the parameters are kept by every part of a step (`paramsKept_step`), hence by the step. -/
theorem stepsNeverChangeTheParameters : Obligations.StepsNeverChangeTheParameters := by
  intro s t hs
  obtain ⟨config, controller0, controller1, cart⟩ := paramsKept_step.step hs
  refine ⟨config, controller0, controller1, cart.prg, cart.prgBanks, cart.chrBanks, cart.headerMirror,
    cart.trainerPresent, cart.chr, ?_⟩
  have kind := cart.kind
  cases hm : s.cart.mapper with
  | m0 => exact Mapper.sameKind_m0_iff.mp (hm ▸ kind)
  | m1 q => exact Mapper.sameKind_m1_iff.mp (hm ▸ kind)
  | m2 q => exact Mapper.sameKind_m2_iff.mp (hm ▸ kind)
  | m4 q => exact Mapper.sameKind_m4_iff.mp (hm ▸ kind)

end Sys2Proof.Machine

/-! 10_state: the invariant of the machine. Beside the canonical stores (`canonical_step`) it has four parts, and each is
carried across a step by a lemma of its own: the status register at rest, the PPU's counters, the sprite cache and the
two clocks of the APU. -/

namespace Sys2Proof.Machine

/-! ## The status register at rest (10_state R28)

`Cpu.StatusAtRest` reads P alone. The lemmas about a computation of P are stated on the byte; those about an operation on
the state say that it keeps P, or what it leaves in P. -/

/-- `Cpu.StatusAtRest` on the status byte. -/
abbrev RestByte (p : Byte) : Prop := flag p .U = true ∧ flag p .B = false

theorem restByte_setFlag {p : Byte} {f : Flag} (b : Bool) (hU : f ≠ .U) (hB : f ≠ .B) (h : RestByte p) :
    RestByte (setFlag p f b) := by
  simpa [RestByte, hU.symm, hB.symm] using h

theorem restByte_setNZ {p : Byte} (v : Byte) (h : RestByte p) : RestByte (setNZ p v) := by
  simpa [RestByte] using h

theorem restByte_compare {p : Byte} (r m : Byte) (h : RestByte p) : RestByte (compare r m p) := by
  simpa [RestByte] using h

theorem restByte_bitTest {p : Byte} (a m : Byte) (h : RestByte p) : RestByte (bitTest a m p) := by
  simpa [RestByte] using h

theorem KeepsControlFlags.restByte {f : Byte → Byte → Byte × Byte} (hf : KeepsControlFlags f) (m : Byte) {p : Byte}
    (h : RestByte p) : RestByte (f m p).2 :=
  ⟨(hf m p .U (by simp)).trans h.1, (hf m p .B (by simp)).trans h.2⟩

theorem restByte_pulledStatus (v : Byte) : RestByte (pulledStatus v) := by simp [RestByte]

/-- P as an entry leaves it, whatever it was before. -/
theorem restByte_entryStatus (brk : Bool) (p : Byte) : RestByte (setFlag (entryStatus brk p) .B false) := by
  simp [RestByte]

/-- What does not write P keeps it at rest. -/
theorem Cpu.StatusAtRest.of_p {c d : Cpu} (h : Cpu.StatusAtRest c) (e : d.p = c.p) : Cpu.StatusAtRest d := by
  rwa [Cpu.StatusAtRest, e]

theorem retire_rest {s : State} (h : Cpu.StatusAtRest s.cpu) (n k : Nat) : Cpu.StatusAtRest (s.retire n k).cpu := h

@[simp] theorem push_p (s : State) (v : Byte) : (push s v).cpu.p = s.cpu.p := by rw [push_eq]; rfl

theorem push_rest {s : State} (h : Cpu.StatusAtRest s.cpu) (v : Byte) : Cpu.StatusAtRest (push s v).cpu :=
  h.of_p (push_p s v)

theorem pop_rest {s : State} (h : Cpu.StatusAtRest s.cpu) : Cpu.StatusAtRest (pop s).2.cpu := by rw [pop_eq]; exact h

@[simp] theorem loadPc_p (s : State) (a : Word) : (loadPc s a).cpu.p = s.cpu.p := by
  simp only [loadPc, setPc_cpu, memRead_cpu]

theorem readSrc_rest (o : Src) {s : State} (h : Cpu.StatusAtRest s.cpu) : Cpu.StatusAtRest (readSrc o s).state.cpu := by
  cases o with
  | imm b1 => exact h
  | mem m => rw [(readSrc_mem m s).2.2]; exact h

theorem store_rest (m : Addr) (v : Byte) {s : State} (h : Cpu.StatusAtRest s.cpu) :
    Cpu.StatusAtRest (store m v s).cpu := by
  unfold store; rw [storeTo_eq]; exact h

theorem jumpTarget_rest (o : JmpTgt) {s : State} (h : Cpu.StatusAtRest s.cpu) :
    Cpu.StatusAtRest (jumpTarget o s).2.cpu := by
  cases o with
  | abs target => exact h
  | ind ptr => simpa only [jumpTarget, memRead_cpu] using h

theorem fetch_rest {s : State} (h : Cpu.StatusAtRest s.cpu) : Cpu.StatusAtRest (fetch s).state.cpu := by
  refine h.of_p ?_
  simp only [fetch, setOpcode_cpu]
  split <;> split <;> simp only [memRead_cpu]

theorem modifyMem_rest {f : Byte → Byte → Byte × Byte} (hf : KeepsControlFlags f) (m : Addr) {s : State}
    (h : Cpu.StatusAtRest s.cpu) : Cpu.StatusAtRest (modifyMem f m s).cpu := by
  rw [modifyMem_eq]; exact hf.restByte _ h

theorem modifyTgt_rest {f : Byte → Byte → Byte × Byte} (hf : KeepsControlFlags f) (o : Tgt) {s : State}
    (h : Cpu.StatusAtRest s.cpu) : Cpu.StatusAtRest (modifyTgt f o s).cpu := by
  cases o with
  | acc => exact hf.restByte _ h
  | mem m => exact modifyMem_rest hf m h

/-- An instruction that computes A and P from an operand (42 R210). -/
theorem accumulate_rest {f : Byte → Byte → Byte → Byte × Byte} (hf : ∀ a, KeepsControlFlags (f a)) (o : Src) {s : State}
    (h : Cpu.StatusAtRest s.cpu) : Cpu.StatusAtRest (accumulate f o s).cpu :=
  (hf _).restByte _ (readSrc_rest o h)

theorem setNZ_keeps (f : Byte → Byte) : KeepsControlFlags fun m p => (f m, setNZ p (f m)) := by
  rintro m p g (rfl | rfl | rfl | rfl) <;> simp

/-- An entry leaves P at rest whatever it was (60_exceptions R310, 45 R279). -/
theorem takeException_rest (s : State) (ret : Word) (brk : Bool) (vec : Word) :
    Cpu.StatusAtRest (takeException s ret brk vec).cpu := by
  simp only [takeException, Cpu.StatusAtRest, loadPc_p, setP_cpu, push_p]
  exact restByte_entryStatus brk s.cpu.p

/-- A return leaves P at rest whatever was pulled (45 R280). -/
theorem returnFromException_rest (s : State) : Cpu.StatusAtRest (returnFromException s).cpu := by
  rw [returnFromException_eq]; exact restByte_pulledStatus _

/-- Every instruction leaves P at rest. -/
theorem exec_rest {i : Instr} {s t : State} (he : exec i s = .next t) (h : Cpu.StatusAtRest s.cpu) :
    Cpu.StatusAtRest t.cpu := by
  have hr (o : Src) : RestByte (readSrc o s).state.cpu.p := readSrc_rest o h
  cases i
  case lda o | ldx o | ldy o => cases he; exact restByte_setNZ _ (hr o)
  case ora o | and o | eor o => cases he; exact accumulate_rest (fun _ => setNZ_keeps _) o h
  case adc o => cases he; exact accumulate_rest adc_keeps o h
  case sbc o => cases he; exact accumulate_rest sbc_keeps o h
  case cmp o | cpx o | cpy o => cases he; exact restByte_compare _ _ (hr o)
  case bit m => cases he; exact restByte_bitTest _ _ (hr (.mem m))
  case sta m | stx m | sty m => cases he; exact store_rest m _ h
  case asl o => cases he; exact modifyTgt_rest asl_keeps o h
  case lsr o => cases he; exact modifyTgt_rest lsr_keeps o h
  case rol o => cases he; exact modifyTgt_rest rol_keeps o h
  case ror o => cases he; exact modifyTgt_rest ror_keeps o h
  case inc m => cases he; exact modifyMem_rest inc_keeps m h
  case dec m => cases he; exact modifyMem_rest dec_keeps m h
  case tax | tay | txa | tya | tsx | inx | iny | dex | dey => cases he; exact restByte_setNZ _ h
  case clc | sec | cli | sei | clv | cld | sed => cases he; exact restByte_setFlag _ (by decide) (by decide) h
  case pha | php => cases he; exact retire_rest (push_rest h _) _ _
  case pla => cases he; exact restByte_setNZ _ (pop_rest h)
  case plp => cases he; exact restByte_pulledStatus _
  case jmp o => cases he; exact (jumpTarget_rest o h).of_p rfl
  case jsr target =>
    have hp : Cpu.StatusAtRest (s.setAbsoluteAddr target).cpu := h
    cases he; exact (push_rest (push_rest hp _) _).of_p rfl
  case rts => cases he; exact (pop_rest (pop_rest h)).of_p rfl
  case brk => cases he; exact takeException_rest s _ _ _
  case rti => cases he; exact returnFromException_rest s
  case ill op b1 =>
    simp only [exec, execIll] at he
    split at he
    · cases he; exact h
    · cases he
  all_goals cases he; exact h

/-- Every slot leaves P at rest. -/
theorem SlotCase.rest {d u : State} (hu : SlotCase d u) (h : Cpu.StatusAtRest d.cpu) : Cpu.StatusAtRest u.cpu := by
  cases hu with
  | idle => exact h
  | dma => rw [dmaStep_frame]; exact h
  | debit => exact h
  | nmi => exact takeException_rest _ _ _ _
  | irq => exact takeException_rest _ _ _ _
  | instr _ _ _ _ _ he =>
    have hf : Cpu.StatusAtRest (freshTemp d).cpu := h
    have ht := exec_rest he (fetch_rest hf)
    exact ht

/-! ## The sprite cache (10_state R41) -/

@[simp] theorem mapFirst_length {α : Type} (f : α → α) (n : Nat) (l : List α) : (mapFirst f n l).length = l.length := by
  induction n, l using mapFirst.induct with
  | case1 l => rfl
  | case2 n => rfl
  | case3 n a l ih => simp [mapFirst, ih]

/-- `q` has the sprite cache of `p`. -/
structure Ppu.SpritesKept (p q : Ppu) : Prop where
  sprites : q.sprites = p.sprites
  spriteCount : q.spriteCount = p.spriteCount

theorem Ppu.SpritesKept.inRange {p q : Ppu} (k : Ppu.SpritesKept p q) (h : Ppu.SpritesInRange p) :
    Ppu.SpritesInRange q := by
  rwa [Ppu.SpritesInRange, k.sprites, k.spriteCount]

theorem Ppu.skipDot_sprites (p : Ppu) : Ppu.SpritesKept p p.skipDot := by
  unfold Ppu.skipDot; split <;> exact ⟨rfl, rfl⟩

theorem Ppu.fetchSlot_sprites (p : Ppu) (c : Cart) : Ppu.SpritesKept p (p.fetchSlot c) := by
  unfold Ppu.fetchSlot Ppu.scrollX
  repeat' split
  all_goals exact ⟨rfl, rfl⟩

theorem Ppu.shiftBackground_sprites (p : Ppu) : Ppu.SpritesKept p p.shiftBackground := by
  unfold Ppu.shiftBackground; split <;> exact ⟨rfl, rfl⟩

theorem Ppu.addressPhase_sprites (p : Ppu) (c : Cart) : Ppu.SpritesKept p (p.addressPhase c) := by
  unfold Ppu.addressPhase Ppu.scrollY Ppu.transferX Ppu.transferY
  repeat' split
  all_goals exact ⟨rfl, rfl⟩

theorem Ppu.vblankPhase_sprites (p : Ppu) : Ppu.SpritesKept p p.vblankPhase := by
  unfold Ppu.vblankPhase; split <;> exact ⟨rfl, rfl⟩

theorem Ppu.pixelPhase_sprites (p : Ppu) (c : Cart) : Ppu.SpritesKept p (p.pixelPhase c) := by
  unfold Ppu.pixelPhase; split <;> exact ⟨rfl, rfl⟩

theorem Ppu.advance_sprites (p : Ppu) : Ppu.SpritesKept p p.advance := by
  rw [Ppu.advance_frame]; exact ⟨rfl, rfl⟩

theorem Ppu.clearPhase_inRange {p : Ppu} (h : Ppu.SpritesInRange p) : Ppu.SpritesInRange p.clearPhase := by
  unfold Ppu.clearPhase
  split
  · exact ⟨by simpa [Ppu.preRenderClear] using h.1, Nat.zero_le 8⟩
  · exact h

theorem Ppu.shiftSprites_inRange {p : Ppu} (h : Ppu.SpritesInRange p) : Ppu.SpritesInRange p.shiftSprites := by
  unfold Ppu.shiftSprites
  split
  · exact ⟨(mapFirst_length _ _ _).trans h.1, h.2⟩
  · exact h

theorem Ppu.fetchPhase_inRange {p : Ppu} (c : Cart) (h : Ppu.SpritesInRange p) : Ppu.SpritesInRange (p.fetchPhase c) := by
  unfold Ppu.fetchPhase
  split
  · exact (Ppu.fetchSlot_sprites _ c).inRange (Ppu.shiftSprites_inRange (p.shiftBackground_sprites.inRange h))
  · exact h

/-- An evaluation fills the cache anew: at most eight entries and the filler (62_ppu R416). -/
theorem Ppu.spriteEvaluate_inRange (p : Ppu) : Ppu.SpritesInRange p.spriteEvaluate := by
  have hle (l : List Nat) : (l.take 8).length ≤ 8 := List.length_take_le 8 l
  refine ⟨?_, hle _⟩
  simp only [Ppu.spriteEvaluate, List.length_append, List.length_map, List.length_replicate]
  exact Nat.add_sub_cancel' (hle _)

theorem Ppu.spritePhase_inRange {p : Ppu} (c : Cart) (h : Ppu.SpritesInRange p) :
    Ppu.SpritesInRange (p.spritePhase c) := by
  unfold Ppu.spritePhase
  split
  · exact p.spriteEvaluate_inRange
  · split
    · exact ⟨(mapFirst_length _ _ _).trans h.1, h.2⟩
    · exact h

theorem Ppu.linePhase_inRange {p : Ppu} (c : Cart) (h : Ppu.SpritesInRange p) : Ppu.SpritesInRange (p.linePhase c) := by
  unfold Ppu.linePhase
  split
  · have h1 := Ppu.clearPhase_inRange (p.skipDot_sprites.inRange h)
    have h2 := Ppu.fetchPhase_inRange c h1
    exact Ppu.spritePhase_inRange c ((Ppu.addressPhase_sprites _ c).inRange h2)
  · exact h

/-- The sprite cache keeps its size across a dot. -/
theorem ppuTick_spritesInRange {p : Ppu} (c : Cart) (h : Ppu.SpritesInRange p) : Ppu.SpritesInRange (ppuTick p c).1 := by
  have h1 := (Ppu.vblankPhase_sprites _).inRange (Ppu.linePhase_inRange c h)
  exact (Ppu.advance_sprites _).inRange ((Ppu.pixelPhase_sprites _ c).inRange h1)

/-! ## The clocks of the APU (10_state R44, 63_apu R450) -/

/-- The frame counter after an APU step: no unit's clock writes it. -/
theorem Apu.step_frameCounter (a : Apu) :
    a.step.frameCounter = if a.frameCounter + 1 = 14916 then 0 else a.frameCounter + 1 := by
  simp only [Apu.step, Apu.channels]
  split <;> split <;> rfl

theorem Apu.tick_frameCounter_le {a : Apu} (h : a.frameCounter ≤ 14915) : a.tick.frameCounter ≤ 14915 := by
  unfold Apu.tick
  split
  · have hs := a.step_frameCounter
    dsimp only
    split at hs <;> omega
  · exact h

/-- `t` has the two APU counters and the system clock of `s`. -/
structure ClocksKept (s t : State) : Prop where
  frameCounter : t.apu.frameCounter = s.apu.frameCounter
  apuClock : t.apu.apuClock = s.apu.apuClock
  systemClock : t.systemClock = s.systemClock

theorem ClocksKept.of_eq {s t : State} (ha : t.apu = s.apu) (hc : t.systemClock = s.systemClock) : ClocksKept s t :=
  ⟨by rw [ha], by rw [ha], hc⟩

theorem ClocksKept.trans {s t u : State} (h : ClocksKept s t) (k : ClocksKept t u) : ClocksKept s u :=
  ⟨k.frameCounter.trans h.frameCounter, k.apuClock.trans h.apuClock, k.systemClock.trans h.systemClock⟩

theorem Apu.regWrite_clocks (a : Apu) (addr : Word) (d : Byte) :
    (a.regWrite addr d).frameCounter = a.frameCounter ∧ (a.regWrite addr d).apuClock = a.apuClock := by
  unfold Apu.regWrite; split <;> exact ⟨rfl, rfl⟩

theorem memWrite_clocks (s : State) (a : Word) (v : Byte) : ClocksKept s (memWrite s a v) := by
  unfold memWrite
  split
  · exact .of_eq rfl rfl
  · unfold busWrite
    split
    · exact .of_eq rfl rfl
    · split
      · exact .of_eq rfl rfl
      · split
        · exact ⟨(s.apu.regWrite_clocks a v).1, (s.apu.regWrite_clocks a v).2, rfl⟩
        · split
          · exact .of_eq rfl rfl
          · split
            · unfold controllerLatch; split <;> exact .of_eq rfl rfl
            · exact .of_eq rfl rfl

/-- No slot moves the clocks: they advance in the devices' part and at the end of a tick. -/
theorem clocksKept_slot : SlotClosed ClocksKept where
  refl _ := .of_eq rfl rfl
  trans := .trans
  read s a := by rw [memRead_frame]; exact .of_eq rfl rfl
  write := memWrite_clocks
  cpu _ _ := .of_eq rfl rfl
  ill _ _ := .of_eq rfl rfl
  dma s := by rw [dmaStep_frame]; exact .of_eq rfl rfl
  fresh _ := .of_eq rfl rfl
  ack _ := .of_eq rfl rfl
  nmi _ := .of_eq rfl rfl

/-! ## The invariant across a step -/

theorem Inv.canonical {s : State} (h : Inv s) : Canonical s := ⟨h.ram, h.ppuStores, h.cart⟩

theorem devicesTick_inv_counters {s : State} (h : Inv s) : Ppu.CountersInRange (devicesTick s).ppu := by
  obtain ⟨h1, h2, h3⟩ := h.counters
  exact ppuTick_range h1 h2 h3

/-- Every step keeps the invariant: the devices' part, the slot and the end of the tick each keep its parts, and the two
clocks advance by one together. -/
theorem step_inv {s t : State} (h : Inv s) (hs : step s = .next t) : Inv t := by
  have hc := canonical_step.step hs h.canonical
  obtain ⟨-, u, hu, rfl⟩ := step_cases hs
  have hp := slot_ppu_keeps hu
  have hk := clocksKept_slot.slot hu
  exact {
    status := hu.rest h.status
    counters := by
      rw [endTick_ppu, Ppu.CountersInRange, hp.scanline, hp.cycle]
      exact devicesTick_inv_counters h
    sprites := Ppu.SpritesKept.inRange ⟨hp.sprites, hp.spriteCount⟩ (ppuTick_spritesInRange s.cart h.sprites)
    ram := hc.ram
    ppuStores := hc.ppu
    cart := hc.cart
    frameCounter := hk.frameCounter.le.trans (Apu.tick_frameCounter_le h.frameCounter)
    apuClock := by
      have ha : u.apu.apuClock = s.apu.apuClock + 1 := hk.apuClock
      have hsys : u.systemClock = s.systemClock := hk.systemClock
      rw [endTick_systemClock, hsys, ← h.apuClock]
      exact ha }

/-! ## What a reset leaves (70_reset R560, R561) -/

/-- The CPU after a reset with the parameters `g` and the reset vector `pc` (R561). -/
def Cpu.afterReset (g : Config) (pc : Word) : Cpu where
  a := g.resetA
  x := g.resetX
  y := g.resetY
  sp := 0xFD
  pc := pc
  p := 0x20
  opcode := 0
  inputAlu := 0
  temp := 0
  absoluteAddr := 0
  relativeAddr := 0
  remainingCycles := 8
  totalCycleCount := 0

/-- The word at the reset vector, as the cartridge answers it (20_memory R94). -/
def resetPc (s : State) : Word := join (peek s (resetVector + 1)) (peek s resetVector)

/-- A reset, field by field; what it does not name it keeps. -/
theorem busReset_eq (s : State) :
    busReset s =
      { s with
        ram := []
        cart := s.cart.reset
        cpu := .afterReset s.config (resetPc { s with ram := [], cart := s.cart.reset })
        ppu := .reset
        apu := .reset
        systemClock := 0
        dma := .reset
        ctrlShift0 := 0
        ctrlShift1 := 0
        audioTime := 0
        sampleReady := false } := by
  simp only [busReset, cpuReset, loadPc_eq _ (show 0x8000 ≤ resetVector by decide)
    (show 0x8000 ≤ resetVector + 1 by decide)]
  rfl

theorem Cart.reset_sound {c : Cart} (h : Cart.Sound c) : Cart.Sound c.reset := by
  obtain ⟨hprg, hchr, hm⟩ := h
  unfold Cart.reset
  split
  · exact ⟨hprg, hchr, hm⟩
  · rename_i r e; rw [e] at hm; exact ⟨hprg, hchr, hm.1, Nat.zero_le 4⟩
  · exact ⟨hprg, hchr, trivial⟩
  · rename_i r e; rw [e] at hm; exact ⟨hprg, hchr, hm⟩

/-- A reset meets the invariant whatever the state was, if the cartridge is sound. -/
theorem busReset_inv {s : State} (h : Cart.Sound s.cart) : Inv (busReset s) := by
  rw [busReset_eq]
  exact {
    status := (by decide : RestByte 0x20)
    counters := (by decide : Ppu.CountersInRange Ppu.reset)
    sprites := (by decide : Ppu.SpritesInRange Ppu.reset)
    ram := rfl
    ppuStores := (by decide : Ppu.StoresCanonical Ppu.reset)
    cart := Cart.reset_sound h
    frameCounter := Nat.zero_le _
    apuClock := rfl }

/-- Every host action keeps the invariant. -/
theorem applyHost_inv (a : HostAction) {s : State} (h : Inv s) : Inv (applyHost a s) := by
  cases a with
  | reset => exact busReset_inv h.cart
  | setController n v => cases n <;> exact { h with }
  | setAudio rate speed => exact { h with }
  | clearFrame => exact { h with }

/-- Settles O43: a step, a host action, a rom swap and a build each meet the invariant. -/
theorem stepsKeepTheInvariant : Obligations.StepsKeepTheInvariant :=
  ⟨fun _ _ h hs => step_inv h hs, fun a _ h => applyHost_inv a h,
    fun _ hc => ⟨fun _ => busReset_inv hc, fun _ => busReset_inv hc⟩⟩

/-- Settles O42: `State.reset` is the build of the machine with the blank cartridge, and a build meets the invariant. -/
theorem resetMeetsTheInvariant : Obligations.ResetMeetsTheInvariant := by
  have hb : newMachine Cart.blank Config.default = State.reset := rfl
  have hs : Cart.Sound Cart.blank := ⟨rfl, rfl, trivial⟩
  unfold Obligations.ResetMeetsTheInvariant
  rw [← hb]
  exact busReset_inv hs

/-! ## The reset vector and the mapper after a reset (64_mappers R511, R525, R531, R543) -/

theorem addrPair_toNat (a : Word) : (addrPair a).toNat = a.toNat / 8192 % 4 := by
  simp [addrPair, field, Nat.shiftRight_eq_div_pow]

/-- After its reset every mapper answers the last 8 KiB of the address space with the last 8 KiB of PRG. -/
theorem Cart.reset_cpuMapRead {c : Cart} (hv : c.valid = true) (r : Bool) {a : Word} (ha : 0xE000 ≤ a) :
    c.reset.cpuMapRead r a = .prg (c.prgBanks * 16384 - (65536 - a.toNat)) := by
  have hlo : 57344 ≤ a.toNat := ha
  have hhi := a.isLt
  have h8 : 0x8000 ≤ a := by rw [BitVec.le_def]; exact Nat.le_trans (by decide) hlo
  have hC : ¬ a < 0xC000 := by rw [BitVec.lt_def]; exact Nat.not_lt.2 (Nat.le_trans (by decide) hlo)
  have h13 : (a &&& 0x1FFF).toNat = a.toNat % 8192 := BitVec.toNat_and .. ▸ Nat.and_two_pow_sub_one_eq_mod a.toNat 13
  have h14 : (a &&& 0x3FFF).toNat = a.toNat % 16384 := BitVec.toNat_and .. ▸ Nat.and_two_pow_sub_one_eq_mod a.toNat 14
  have h15 : (a &&& 0x7FFF).toNat = a.toNat % 32768 := BitVec.toNat_and .. ▸ Nat.and_two_pow_sub_one_eq_mod a.toNat 15
  have hpair : (addrPair a).toNat = 3 := by rw [addrPair_toNat]; omega
  have mod_eq {off : Nat} (hb : 1 ≤ c.prgBanks) (ho : off = c.prgBanks * 16384 - (65536 - a.toNat)) :
      off % (c.prgBanks * 16384) = c.prgBanks * 16384 - (65536 - a.toNat) := by
    rw [ho]; exact Nat.mod_eq_of_lt (by omega)
  unfold Cart.valid at hv
  cases hm : c.mapper with
  | m0 =>
    simp only [hm, Bool.or_eq_true, beq_iff_eq] at hv
    simp only [Cart.reset, Cart.cpuMapRead, hm, h8, if_true, m0PrgOffset, Cart.prgSize, h14, h15]
    congr 1
    obtain e | e := hv <;> rw [e] <;> simp <;> omega
  | m1 r =>
    simp only [hm, decide_eq_true_eq] at hv
    have hmode : (field (0x1C : BitVec 5) 2 2).toNat = 3 := by decide
    simp only [Cart.reset, Cart.cpuMapRead, hm, h8, if_true, Cart.prgSize, m1PrgOffset, hmode, hC, if_false, h14]
    congr 1
    exact mod_eq hv (by omega)
  | m2 r =>
    simp only [hm, decide_eq_true_eq] at hv
    simp only [Cart.reset, Cart.cpuMapRead, hm, h8, if_true, Cart.prgSize, m2PrgOffset, hC, if_false, h14]
    congr 1
    exact mod_eq hv (by omega)
  | m4 r =>
    simp only [hm, decide_eq_true_eq] at hv
    simp only [Cart.reset, Cart.cpuMapRead, hm, h8, if_true, Cart.prgSize, m4PrgOffset, m4PrgBank, hpair, h13]
    congr 1
    exact mod_eq hv (by omega)

/-- A reset writes nothing of the cartridge but its mapper's registers. -/
theorem Cart.reset_frame (c : Cart) : c.reset = { c with mapper := c.reset.mapper } := by
  unfold Cart.reset; split <;> rfl

theorem Cart.reset_irqState (c : Cart) : c.reset.irqState = false := by
  unfold Cart.reset
  split
  · rename_i e; simp only [Cart.irqState, e]
  all_goals rfl

/-- After its reset a valid cartridge answers the vector with the last bytes of PRG (70_reset R561). -/
theorem Cart.reset_peek {s : State} (hv : s.cart.valid = true) (m : Memory) {a : Word} (ha : 0xE000 ≤ a) :
    peek { s with ram := m, cart := s.cart.reset } a = s.cart.prg.read (s.cart.prgBanks * 16384 - (65536 - a.toNat)) := by
  have hprg : s.cart.reset.prg = s.cart.prg := by rw [Cart.reset_frame]
  simp only [peek, memRead, Cart.reset_cpuMapRead hv _ ha, hprg]

/-- Settles O40: what a reset leaves, read off `busReset_eq`; the vector off the mapper's reset window. -/
theorem resetInitialises : Obligations.ResetInitialises := by
  intro s
  rw [busReset_eq]
  intro t silent
  refine ⟨fun hv => ?_, rfl, ⟨fun _ => rfl, rfl, rfl, rfl, rfl, rfl, rfl⟩, ⟨rfl, fun _ => ⟨rfl, rfl, rfl, rfl, rfl⟩⟩, rfl,
    ⟨rfl, rfl, rfl, rfl, rfl, Cart.reset_frame _, Cart.reset_irqState _⟩, ?_⟩
  · have hi := Cart.reset_peek hv [] (a := resetVector + 1) (by decide)
    have lo := Cart.reset_peek hv [] (a := resetVector) (by decide)
    exact congrArg₂ join hi lo
  · cases hm : s.cart.mapper <;> simp only [t, Cart.reset, hm]

end Sys2Proof.Machine

/-! 63_apu: the sound reaches nothing else. A state with the sound of another (`withSound`) makes the same reads, takes
the same branches and stops alike; the simulation is carried from the bus up to a step and a run. -/

namespace Sys2Proof.Claims

open Sys2Proof.Machine

/-! ## The sound of another state -/

/-- `s` with the sound of `x`: its APU, audio accumulator and sample flag. -/
def withSound (s x : State) : State :=
  { s with apu := x.apu, audioTime := x.audioTime, sampleReady := x.sampleReady }

theorem sameButSound_iff {s t : State} : SameButSound s t ↔ ∃ x, t = withSound s x :=
  ⟨fun h => ⟨t, h⟩, by rintro ⟨x, rfl⟩; rfl⟩

/-- Two states alike but for the sound stay so when both get the same CPU. -/
theorem SameButSound.withCpu {s t : State} (h : SameButSound s t) (c : Cpu) :
    SameButSound { s with cpu := c } { t with cpu := c } := by
  obtain ⟨x, rfl⟩ := sameButSound_iff.mp h; rfl

theorem SameButSound.retire {s t : State} (h : SameButSound s t) (n k : Nat) :
    SameButSound (s.retire n k) (t.retire n k) := by
  obtain ⟨x, rfl⟩ := sameButSound_iff.mp h; rfl

/-! ## The bus and the stack -/

/-- The sound takes no part in a bus read. -/
@[simp] theorem memRead_withSound (s x : State) (a : Word) :
    memRead (withSound s x) a = ((memRead s a).1, withSound (memRead s a).2 x) := by
  unfold memRead withSound
  dsimp only
  split
  · rfl
  · rfl
  · unfold busRead
    split
    · rfl
    · split
      · rfl
      · split
        · unfold controllerRead; split <;> rfl
        · rfl

@[simp] theorem peek_withSound (s x : State) (a : Word) : peek (withSound s x) a = peek s a := by
  simp only [peek, memRead_withSound]

/-- A bus write may write the APU, and reads nothing of the sound (20_memory R89). -/
theorem sameButSound_memWrite (s x : State) (a : Word) (v : Byte) :
    SameButSound (memWrite s a v) (memWrite (withSound s x) a v) := by
  unfold memWrite withSound
  dsimp only
  split
  · rfl
  · unfold busWrite
    split
    · rfl
    · split
      · rfl
      · split
        · rfl
        · split
          · rfl
          · split
            · unfold controllerLatch; split <;> rfl
            · rfl

@[simp] theorem push_withSound (s x : State) (v : Byte) : push (withSound s x) v = withSound (push s v) x := by
  simp only [push_eq]; rfl

@[simp] theorem pop_withSound (s x : State) : pop (withSound s x) = ((pop s).1, withSound (pop s).2 x) := by
  simp only [pop_eq]; rfl

theorem takeException_withSound (s x : State) (ret : Word) (brk : Bool) {vec : Word} (h : 0x8000 ≤ vec)
    (h' : 0x8000 ≤ vec + 1) :
    takeException (withSound s x) ret brk vec = withSound (takeException s ret brk vec) x := by
  simp only [takeException_eq _ _ _ h h', peek_withSound]; rfl

theorem returnFromException_withSound (s x : State) :
    returnFromException (withSound s x) = withSound (returnFromException s) x := by
  simp only [returnFromException_eq]; rfl

/-! ## Operands -/

@[simp] theorem effAddr_withSound (m : Addr) (s x : State) :
    effAddr m (withSound s x) = { effAddr m s with state := withSound (effAddr m s).state x } := by
  cases m <;> simp only [effAddr, modeAddr, zeroPagePointer_eq] <;> rfl

@[simp] theorem readSrc_withSound (o : Src) (s x : State) :
    readSrc o (withSound s x) = { readSrc o s with state := withSound (readSrc o s).state x } := by
  cases o with
  | imm b1 => rfl
  | mem m => simp only [readSrc, effAddr_withSound, memRead_withSound]; rfl

@[simp] theorem jumpTarget_withSound (o : JmpTgt) (s x : State) :
    jumpTarget o (withSound s x) = ((jumpTarget o s).1, withSound (jumpTarget o s).2 x) := by
  cases o with
  | abs target => rfl
  | ind ptr => simp only [jumpTarget, memRead_withSound]

theorem sameButSound_store (m : Addr) (v : Byte) (s x : State) :
    SameButSound (store m v s) (store m v (withSound s x)) := by
  simp only [store, storeTo_eq, effAddr_withSound]
  exact (sameButSound_memWrite s x _ v).withCpu _

theorem sameButSound_modifyMem (f : Byte → Byte → Byte × Byte) (m : Addr) (s x : State) :
    SameButSound (modifyMem f m s) (modifyMem f m (withSound s x)) := by
  simp only [modifyMem_eq, effAddr_withSound, peek_withSound, memRead_withSound]
  exact (sameButSound_memWrite _ x _ _).withCpu _

theorem sameButSound_modifyTgt (f : Byte → Byte → Byte × Byte) (o : Tgt) (s x : State) :
    SameButSound (modifyTgt f o s) (modifyTgt f o (withSound s x)) := by
  cases o with
  | acc => rfl
  | mem m => exact sameButSound_modifyMem f m s x

/-! ## Instructions -/

/-- Two outcomes alike but for the sound: next states that differ in it alone, or the same refusal. -/
inductive AlikeButSound : Result → Result → Prop
  | next {s t : State} (h : SameButSound s t) : AlikeButSound (.next s) (.next t)
  | refused (r : Refusal) : AlikeButSound (.refused r) (.refused r)

theorem AlikeButSound.next_of {r q : Result} {s : State} (h : AlikeButSound r q) (hr : r = .next s) :
    ∃ t, q = .next t ∧ SameButSound s t := by
  cases h with
  | next h => cases hr; exact ⟨_, rfl, h⟩
  | refused _ => cases hr

theorem AlikeButSound.andThen {r q : Result} {f : State → State} (h : AlikeButSound r q)
    (hf : ∀ s x, SameButSound (f s) (f (withSound s x))) : AlikeButSound (andThen r f) (andThen q f) := by
  cases h with
  | next h => obtain ⟨x, rfl⟩ := sameButSound_iff.mp h; exact .next (hf _ x)
  | refused r => exact .refused r

/-- No instruction's meaning depends on the sound. -/
theorem exec_alike (i : Instr) (s x : State) : AlikeButSound (exec i s) (exec i (withSound s x)) := by
  cases i
  case lda o | ldx o | ldy o =>
    simp only [exec, execLda, execLdx, execLdy, readSrc_withSound]; exact .next rfl
  case ora o | and o | eor o | adc o | sbc o =>
    simp only [exec, execOra, execAnd, execEor, execAdc, execSbc, accumulate, readSrc_withSound]; exact .next rfl
  case cmp o | cpx o | cpy o =>
    simp only [exec, execCmp, execCpx, execCpy, compareWith, readSrc_withSound]; exact .next rfl
  case bit m => simp only [exec, execBit, readSrc_withSound]; exact .next rfl
  case sta m | stx m | sty m => exact .next (sameButSound_store m _ s x)
  case asl o | lsr o | rol o | ror o => exact .next ((sameButSound_modifyTgt _ o s x).retire _ _)
  case inc m | dec m => exact .next ((sameButSound_modifyMem _ m s x).retire _ _)
  case pha | php => simp only [exec, execPha, execPhp, push_eq]; exact .next rfl
  case pla | plp => simp only [exec, execPla, execPlp, pop_withSound]; exact .next rfl
  case jmp o => simp only [exec, execJmp, jumpTarget_withSound]; exact .next rfl
  case jsr target => simp only [exec, execJsr, push_eq]; exact .next rfl
  case rts => simp only [exec, execRts, pop_withSound]; exact .next rfl
  case brk =>
    have h := takeException_withSound s x (s.cpu.pc + 2) true (vec := irqVector) (by decide) (by decide)
    exact .next (sameButSound_iff.mpr ⟨x, congrArg (fun u : State => u.setCycles 7) h⟩)
  case rti =>
    simp only [exec, execRti, returnFromException_withSound]; exact .next rfl
  case ill op b1 =>
    have hp : (withSound s x).config = s.config := rfl
    simp only [exec, execIll, hp]
    split
    · exact .next rfl
    · exact .refused _
  all_goals exact .next rfl

/-! ## One step -/

/-- The shape of a fetch's reads of the operand bytes, which depend on the size (30_encoding R122). -/
theorem readIf_withSound (c : Prop) [Decidable c] (s x : State) (a : Word) :
    (if c then memRead (withSound s x) a else (0, withSound s x)) =
      ((if c then memRead s a else (0, s)).1, withSound (if c then memRead s a else (0, s)).2 x) := by
  split
  · exact memRead_withSound s x a
  · rfl

@[simp] theorem fetch_withSound (s x : State) :
    fetch (withSound s x) = { fetch s with state := withSound (fetch s).state x } := by
  have hpc : (withSound s x).cpu = s.cpu := rfl
  simp only [fetch, hpc, memRead_withSound s x s.cpu.pc, readIf_withSound]
  rfl

theorem runInstr_alike (s x : State) : AlikeButSound (runInstr s) (runInstr (withSound s x)) := by
  simp only [runInstr, fetch_withSound]
  exact exec_alike _ _ x

theorem takeNmi_withSound (s x : State) : takeNmi (withSound s x) = withSound (takeNmi s) x := by
  have h := takeException_withSound { s with ppu := { s.ppu with nmiLatch := false } } x s.cpu.pc false (vec := nmiVector)
    (by decide) (by decide)
  exact congrArg (fun u : State => u.setCycles 8) h

theorem takeIrq_withSound (s x : State) : takeIrq (withSound s x) = withSound (takeIrq s) x := by
  have h := takeException_withSound s x s.cpu.pc false (vec := irqVector) (by decide) (by decide)
  exact congrArg (fun u : State => ({ u with cart := u.cart.irqClear } : State).setCycles 7) h

theorem boundary_alike (s x : State) : AlikeButSound (boundary s) (boundary (withSound s x)) := by
  have hn : (withSound s x).ppu = s.ppu := rfl
  have hi : irqPending (withSound s x) = irqPending s := rfl
  have hf : freshTemp (withSound s x) = withSound (freshTemp s) x := rfl
  simp only [boundary, hn, hi, hf, takeNmi_withSound, takeIrq_withSound]
  split
  · exact .next rfl
  · split
    · exact .next rfl
    · exact runInstr_alike _ x

theorem dmaStep_withSound (s x : State) : dmaStep (withSound s x) = withSound (dmaStep s) x := by
  have hd : (withSound s x).dma = s.dma := rfl
  have hc : (withSound s x).systemClock = s.systemClock := rfl
  simp only [dmaStep, hd, hc, memRead_withSound]
  split
  · split <;> rfl
  · split <;> rfl

theorem cpuTick_alike (s x : State) : AlikeButSound (cpuTick s) (cpuTick (withSound s x)) := by
  have hc : (withSound s x).cpu = s.cpu := rfl
  simp only [cpuTick, hc]
  split
  · exact (boundary_alike s x).andThen fun _ _ => rfl
  · exact .next rfl

theorem cpuSlot_alike (s x : State) : AlikeButSound (cpuSlot s) (cpuSlot (withSound s x)) := by
  have hc : (withSound s x).systemClock = s.systemClock := rfl
  have hd : (withSound s x).dma = s.dma := rfl
  simp only [cpuSlot, hc, hd, dmaStep_withSound]
  split
  · split
    · exact .next rfl
    · exact cpuTick_alike s x
  · exact .next rfl

/-- A step reads the sound for the sound alone: the devices' part and the end of the tick write it, the slot neither. -/
theorem step_alike {s t : State} (h : SameButSound s t) : AlikeButSound (step s) (step t) := by
  obtain ⟨x, rfl⟩ := sameButSound_iff.mp h
  have hc : (withSound s x).cart = s.cart := rfl
  have hd : devicesTick (withSound s x) = withSound (devicesTick s) (devicesTick (withSound s x)) := rfl
  simp only [step, masterTick, hc]
  split
  · rw [hd]
    exact (cpuSlot_alike _ _).andThen fun _ _ => rfl
  · exact .refused _

/-- A run of `n + 1` steps that completes is a step that completes and a run of `n` steps from there. -/
theorem run_succ_eq_next {n : Nat} {s u : State} :
    Host.Core.run Sys2Proof.core (n + 1) s = .next u ↔
      ∃ m : State, step s = .next m ∧ Host.Core.run Sys2Proof.core n m = .next u := by
  have hs : Sys2Proof.core.step s = step s := rfl
  simp only [Host.Core.run, hs]
  constructor
  · intro h
    cases hm : step s with
    | next m => rw [hm] at h; exact ⟨m, rfl, h⟩
    | fault r => cases r
    | refused r => rw [hm] at h; cases h
  · rintro ⟨m, hm, h⟩
    rwa [hm]

/-- Settles O46: by induction on the number of steps, each of which answers alike (`step_alike`). -/
theorem soundNeverReachesTheMachine : Obligations.SoundNeverReachesTheMachine := by
  intro n
  induction n with
  | zero =>
    intro s t s' h hr
    cases hr
    exact ⟨t, rfl, h⟩
  | succ n ih =>
    intro s t s' h hr
    obtain ⟨m, hm, hr⟩ := run_succ_eq_next.mp hr
    obtain ⟨m', hm', h'⟩ := (step_alike h).next_of hm
    obtain ⟨t', ht, h''⟩ := ih m m' s' h' hr
    exact ⟨t', run_succ_eq_next.mpr ⟨m', hm', ht⟩, h''⟩

end Sys2Proof.Claims

/-! 20_memory: the map of the CPU bus. One equation per region says what a read and a write are there; `peek_congr` says
what a read's answer depends on, and the statements about what an access reaches are its instances. -/

namespace Sys2Proof.Machine

open Sys2Proof.Claims

/-! ## One equation per region (20_memory R87 to R93) -/

theorem memRead_below (s : State) {a : Word} (h : a < 0x6000) : memRead s a = busRead s a := by
  simp only [memRead, cpuMapRead_low _ _ h]

theorem memWrite_below (s : State) {a : Word} (v : Byte) (h : a < 0x6000) : memWrite s a v = busWrite s a v := by
  simp only [memWrite, cpuMapWrite_low _ _ _ h]

theorem memRead_ppu (s : State) {a : Word} (h : PpuRange a) : memRead s a = ppuRegRead s (field a 0 3) := by
  obtain ⟨lo, hi⟩ := h
  rw [memRead_below s (by bv_omega), busRead, if_neg (by bv_omega), if_pos hi]

theorem memRead_port0 (s : State) : memRead s 0x4016 = (s.ctrlShift0 >>> 7, { s with ctrlShift0 := s.ctrlShift0 <<< 1 }) :=
  memRead_below s (by decide)

theorem memRead_port1 (s : State) : memRead s 0x4017 = (s.ctrlShift1 >>> 7, { s with ctrlShift1 := s.ctrlShift1 <<< 1 }) :=
  memRead_below s (by decide)

/-- Above the PPU's range only the two ports answer below the cartridge. -/
theorem busRead_unhandled (s : State) {a : Word} (h : 0x4000 ≤ a) (h0 : a ≠ 0x4016) (h1 : a ≠ 0x4017) :
    busRead s a = (0, s) := by
  rw [busRead, if_neg (by bv_omega), if_neg (by bv_omega), if_neg (not_or.mpr ⟨h0, h1⟩)]

/-- Above the ports no device takes a write below the cartridge. -/
theorem busWrite_unhandled (s : State) {a : Word} (v : Byte) (h : 0x4018 ≤ a) : busWrite s a v = s := by
  rw [busWrite, if_neg (by bv_omega), if_neg (by bv_omega), if_neg (by bv_omega), if_neg (by bv_omega),
    if_neg (by bv_omega)]

/-- A device register above the PPU's range reaches the APU, the DMA engine or one port's shifter. -/
theorem busWrite_device (s : State) {a : Word} (v : Byte) (h : 0x4000 ≤ a) :
    busWrite s a v =
      { s with
        apu := (busWrite s a v).apu
        dma := (busWrite s a v).dma
        ctrlShift0 := if a = 0x4016 then s.controller0 else s.ctrlShift0
        ctrlShift1 := if a = 0x4017 then s.controller1 else s.ctrlShift1 } := by
  by_cases h0 : a = 0x4016
  · subst h0; rfl
  by_cases h1 : a = 0x4017
  · subst h1; rfl
  rw [if_neg h0, if_neg h1]
  unfold busWrite
  rw [if_neg (by bv_omega), if_neg (by bv_omega)]
  split
  · rfl
  · split
    · rfl
    · rw [if_neg (not_or.mpr ⟨h0, h1⟩)]

theorem memWrite_ppu (s : State) {a : Word} (v : Byte) (h : PpuRange a) :
    memWrite s a v = ppuRegWrite s (field a 0 3) v := by
  obtain ⟨lo, hi⟩ := h
  rw [memWrite_below s v (by bv_omega), busWrite, if_neg (by bv_omega), if_pos hi]

/-! ## The cartridge's window $6000 to $7FFF (64_mappers R521, R535) -/

theorem cartRam_eq_none {s : State} (h : cartRam s = none) :
    s.cart.mapper = .m0 ∨ (∃ r, s.cart.mapper = .m2 r) ∨ ∃ r, s.cart.mapper = .m4 r ∧ s.config.m4PrgRam = false := by
  unfold cartRam at h
  split at h <;> simp_all

theorem cartRam_eq_some {s : State} {ram : Memory} (h : cartRam s = some ram) :
    (∃ r, s.cart.mapper = .m1 r ∧ r.ram = ram) ∨
      ∃ r, s.cart.mapper = .m4 r ∧ s.config.m4PrgRam = true ∧ r.ram = ram := by
  unfold cartRam at h
  split at h <;> simp_all

theorem cartRam_index (a : Word) : (a &&& 0x1FFF).toNat = a.toNat % 0x2000 := by
  rw [BitVec.toNat_and]
  exact Nat.and_two_pow_sub_one_eq_mod a.toNat 13

/-- Without RAM the window is the bus's, which nobody handles (20_memory R92). -/
theorem memRead_noRam {s : State} {a : Word} (h : cartRam s = none) (h6 : 0x6000 ≤ a) (h7 : a ≤ 0x7FFF) :
    memRead s a = (0, s) := by
  have h8 : ¬ (0x8000 : Word) ≤ a := by bv_omega
  have hb : busRead s a = (0, s) := busRead_unhandled s (by bv_omega) (by bv_omega) (by bv_omega)
  obtain hm | ⟨r, hm⟩ | ⟨r, hm, hp⟩ := cartRam_eq_none h
  · simp only [memRead, Cart.cpuMapRead, hm, h8, if_false, hb]
  · simp only [memRead, Cart.cpuMapRead, hm, h8, if_false, hb]
  · simp only [memRead, Cart.cpuMapRead, hm, h8, hp, Bool.false_eq_true, and_false, if_false, hb]

theorem memWrite_noRam {s : State} {a : Word} (v : Byte) (h : cartRam s = none) (h6 : 0x6000 ≤ a) (h7 : a ≤ 0x7FFF) :
    memWrite s a v = s := by
  have h8 : ¬ (0x8000 : Word) ≤ a := by bv_omega
  have hb : busWrite s a v = s := busWrite_unhandled s v (by bv_omega)
  obtain hm | ⟨r, hm⟩ | ⟨r, hm, hp⟩ := cartRam_eq_none h
  · simp only [memWrite, Cart.cpuMapWrite, hm, hb]
  · simp only [memWrite, Cart.cpuMapWrite, hm, h8, if_false, hb]
  · simp only [memWrite, Cart.cpuMapWrite, hm, h8, hp, Bool.false_eq_true, and_false, if_false, hb]

/-- With RAM the window is its cell at the low 13 bits. -/
theorem memRead_cartRam {s : State} {ram : Memory} {a : Word} (h : cartRam s = some ram) (h6 : 0x6000 ≤ a)
    (h7 : a ≤ 0x7FFF) : memRead s a = (ram.read (a.toNat % 0x2000), s) := by
  have h8 : ¬ (0x8000 : Word) ≤ a := by bv_omega
  obtain ⟨r, hm, rfl⟩ | ⟨r, hm, hp, rfl⟩ := cartRam_eq_some h
  · simp only [memRead, Cart.cpuMapRead, hm, h8, h6, if_false, if_true, cartRam_index]
  · simp only [memRead, Cart.cpuMapRead, hm, h8, h6, hp, and_self, if_false, if_true, cartRam_index]

theorem memWrite_cartRam {s : State} {ram : Memory} {a : Word} (v : Byte) (h : cartRam s = some ram) (h6 : 0x6000 ≤ a)
    (h7 : a ≤ 0x7FFF) : memWrite s a v = withCartRam s (ram.write (a.toNat % 0x2000) v) := by
  have h8 : ¬ (0x8000 : Word) ≤ a := by bv_omega
  obtain ⟨r, hm, rfl⟩ | ⟨r, hm, hp, rfl⟩ := cartRam_eq_some h
  · simp only [memWrite, Cart.cpuMapWrite, withCartRam, hm, h8, h6, if_false, if_true, cartRam_index]
  · simp only [memWrite, Cart.cpuMapWrite, withCartRam, hm, h8, h6, hp, and_self, if_false, if_true, cartRam_index]

theorem cartRam_withCartRam {s : State} {ram : Memory} (h : cartRam s = some ram) (m : Memory) :
    cartRam (withCartRam s m) = some m := by
  obtain ⟨r, hm, rfl⟩ | ⟨r, hm, hp, rfl⟩ := cartRam_eq_some h
  · simp only [withCartRam, hm, cartRam]
  · simp only [withCartRam, hm, cartRam, hp, if_true]

theorem withCartRam_frame (s : State) (m : Memory) :
    withCartRam s m = { s with cart := { s.cart with mapper := (withCartRam s m).cart.mapper } } := by
  unfold withCartRam; split <;> rfl

/-- What the cartridge's RAM holds selects no PRG bank. -/
theorem withCartRam_map (s : State) (m : Memory) {a : Word} (h8 : 0x8000 ≤ a) :
    (withCartRam s m).cart.cpuMapRead s.config.m4PrgRam a = s.cart.cpuMapRead s.config.m4PrgRam a := by
  unfold withCartRam
  split
  · rename_i r hm; simp only [Cart.cpuMapRead, hm, h8, if_true]; rfl
  · rename_i r hm; simp only [Cart.cpuMapRead, hm, h8, if_true]; rfl
  · rfl
  · rfl

/-- Settles O9: below the cartridge by `busRead_unhandled` and `busWrite_unhandled`, in its window by the mapper. -/
theorem unhandledAddressesReadZero : Obligations.UnhandledAddressesReadZero := by
  intro s a v noRam
  refine ⟨fun ⟨lo, hi⟩ => ?_, fun ⟨lo, hi⟩ => ?_, fun hr ⟨lo, hi⟩ => ?_⟩
  · rw [memRead_below s (by bv_omega)]
    exact busRead_unhandled s lo (by bv_omega) (by bv_omega)
  · rw [memRead_below s (by bv_omega), memWrite_below s v (by bv_omega)]
    exact ⟨busRead_unhandled s (by bv_omega) (by bv_omega) (by bv_omega), busWrite_unhandled s v lo⟩
  · have hn : cartRam s = none := by
      unfold cartRam
      cases hm : s.cart.mapper with
      | m0 => rfl
      | m1 r => simp only [noRam, hm] at hr
      | m2 r => rfl
      | m4 r => simp only [noRam, hm] at hr; simp only [hr, Bool.false_eq_true, if_false]
    exact ⟨memRead_noRam hn lo hi, memWrite_noRam v hn lo hi⟩

/-! ## What a read's answer depends on -/

/-- The value a PPU register read answers does not depend on the cartridge: a pattern byte only refills the buffer
(62_ppu R400). -/
theorem Ppu.regRead_value (p : Ppu) (c d : Cart) (low5 : BitVec 5) (r : BitVec 3) :
    (p.regRead c low5 r).1 = (p.regRead d low5 r).1 := by
  unfold Ppu.regRead
  split
  · rfl
  · rfl
  · simp only [Ppu.readData]
    split
    · rename_i h
      have h1 : ¬ (p.v.setWidth 16 &&& 0x3FFF : Word) ≤ 0x1FFF := by bv_omega
      have h2 : ¬ (p.v.setWidth 16 &&& 0x3FFF : Word) ≤ 0x3EFF := by bv_omega
      simp only [Ppu.read, h1, h2, if_false]
    · rfl
  · rfl

/-- A read's answer depends on the device at its address alone: the RAM cell, the PPU, the port's shifter, or what the
cartridge maps there. -/
theorem peek_congr {s t : State} {a : Word} (config : t.config = s.config)
    (ram : a ≤ 0x1FFF → t.ram.read (a &&& 0x07FF).toNat = s.ram.read (a &&& 0x07FF).toNat)
    (ppu : PpuRange a → t.ppu = s.ppu) (port0 : a = 0x4016 → t.ctrlShift0 = s.ctrlShift0)
    (port1 : a = 0x4017 → t.ctrlShift1 = s.ctrlShift1) (prg : t.cart.prg = s.cart.prg)
    (map : 0x6000 ≤ a → t.cart.cpuMapRead s.config.m4PrgRam a = s.cart.cpuMapRead s.config.m4PrgRam a) :
    peek t a = peek s a := by
  unfold peek
  by_cases hr : a ≤ 0x1FFF
  · rw [memRead_ram t hr, memRead_ram s hr, ram hr]
  by_cases hp : a ≤ 0x3FFF
  · have hp : PpuRange a := ⟨by bv_omega, hp⟩
    rw [memRead_ppu t hp, memRead_ppu s hp]
    simp only [ppuRegRead, config, ppu hp]
    exact Ppu.regRead_value _ _ _ _ _
  by_cases h0 : a = 0x4016
  · rw [h0, memRead_port0, memRead_port0, port0 h0]
  by_cases h1 : a = 0x4017
  · rw [h1, memRead_port1, memRead_port1, port1 h1]
  have hb (u : State) : busRead u a = (0, u) := busRead_unhandled u (by bv_omega) h0 h1
  have hm : t.cart.cpuMapRead s.config.m4PrgRam a = s.cart.cpuMapRead s.config.m4PrgRam a := by
    by_cases h6 : 0x6000 ≤ a
    · exact map h6
    · rw [cpuMapRead_low _ _ (by bv_omega), cpuMapRead_low _ _ (by bv_omega)]
  simp only [memRead, config, hm, hb, prg]
  split <;> rfl


/-- The images of a RAM cell are one cell, and a write of it reaches no other address (20_memory R87). -/
theorem peek_memWrite_ram (s : State) {a : Word} (v : Byte) (h : a ≤ 0x1FFF) (b : Word) :
    peek (memWrite s a v) b = if SameCell a b then v else peek s b := by
  rw [memWrite_ram s v h]
  split
  · rename_i hs
    obtain ⟨-, hb, he⟩ := hs
    rw [peek, memRead_ram _ hb, he]
    exact Memory.read_write_same _ _ _
  · rename_i hs
    refine peek_congr rfl (fun hb => Memory.read_write_other _ _ fun he => hs ⟨h, hb, ?_⟩) (fun _ => rfl) (fun _ => rfl)
      (fun _ => rfl) rfl (fun _ => rfl)
    exact (BitVec.eq_of_toNat_eq he).symm

/-- Settles O8: the equations of the region, and `peek_memWrite_ram` for what a write reaches. -/
theorem ramIsMirroredEvery0800 : Obligations.RamIsMirroredEvery0800 := by
  intro s a v h
  refine ⟨?_, ?_, memWrite_cpu s a v, peek_memWrite_ram s v h⟩
  · rw [memRead_ram s h, ram_index]
  · rw [memWrite_ram s v h]; rfl

/-- Settles O10: the PPU's registers by `memRead_ppu`, the ports by their equations, every other address by
`memRead_state`. -/
theorem readsAffectOnlyTheirDevice : Obligations.ReadsAffectOnlyTheirDevice := by
  intro s a b
  refine ⟨memRead_state s, fun ha => ?_, ?_, ?_⟩
  · rw [memRead_ppu s ha]
    exact ⟨rfl, fun hb => peek_congr rfl (fun _ => rfl) (fun h => absurd h hb) (fun _ => rfl) (fun _ => rfl) rfl
      (fun _ => rfl)⟩
  · rintro rfl; rw [memRead_port0]
  · rintro rfl; rw [memRead_port1]

/-! ## What a write reaches -/

/-- A PPU register write changes nothing of the cartridge but CHR RAM (62_ppu R382). -/
theorem Ppu.regWrite_cart_frame (p : Ppu) (c : Cart) (r : BitVec 3) (d : Byte) :
    (p.regWrite c r d).2 = { c with chr := (p.regWrite c r d).2.chr } := by
  have hw (a : Word) : (p.write c a d).2 = { c with chr := (p.write c a d).2.chr } := by
    unfold Ppu.write
    dsimp only
    split
    · split
      · rename_i c' h
        unfold Cart.chrWrite at h
        split at h
        · cases h; rfl
        · cases h
      · rfl
    · split <;> rfl
  unfold Ppu.regWrite
  split
  case h_7 => exact hw _
  all_goals rfl

theorem Mmc1.writeReg_ram (r : Mmc1) (a : Word) (d : Byte) : (r.writeReg a d).ram = r.ram := by
  unfold Mmc1.writeReg
  dsimp only
  repeat' split
  all_goals rfl

/-- A write of a mapper's registers leaves the window below $8000 as it was. -/
theorem Cart.cpuMapWrite_map_low {c c' : Cart} {ram : Bool} {ea a : Word} {v : Byte}
    (h : c.cpuMapWrite ram ea v = some c') (hea : 0x8000 ≤ ea) (ha : a < 0x8000) :
    c'.cpuMapRead ram a = c.cpuMapRead ram a := by
  have h8 : ¬ (0x8000 : Word) ≤ a := by bv_omega
  cases hm : c.mapper <;> simp only [Cart.cpuMapWrite, hm, hea, if_true] at h <;> cases h
  case m1 r => simp only [Cart.cpuMapRead, hm, h8, if_false, Mmc1.writeReg_ram]
  case m2 r => simp only [Cart.cpuMapRead, hm, h8, if_false]
  case m4 r => simp only [Cart.cpuMapRead, hm, h8, if_false, Mmc3.writeReg_ram]

theorem peek_memWrite_ppu (s : State) {ea a : Word} (v : Byte) (hea : PpuRange ea) (ha : ¬ PpuRange a) :
    peek (memWrite s ea v) a = peek s a := by
  have hc : (ppuRegWrite s (field ea 0 3) v).cart = { s.cart with chr := (ppuRegWrite s (field ea 0 3) v).cart.chr } :=
    Ppu.regWrite_cart_frame s.ppu s.cart (field ea 0 3) v
  rw [memWrite_ppu s v hea]
  exact peek_congr rfl (fun _ => rfl) (fun h => absurd h ha) (fun _ => rfl) (fun _ => rfl) (by rw [hc])
    (fun _ => by rw [hc]; rfl)

theorem peek_memWrite_device (s : State) {ea a : Word} (v : Byte) (h4 : 0x4000 ≤ ea) (h6 : ea < 0x6000) (ha : a ≠ ea) :
    peek (memWrite s ea v) a = peek s a := by
  rw [memWrite_below s v h6, busWrite_device s v h4]
  exact peek_congr rfl (fun _ => rfl) (fun _ => rfl) (fun h => if_neg fun e => ha (h.trans e.symm))
    (fun h => if_neg fun e => ha (h.trans e.symm)) rfl (fun _ => rfl)

/-- The window's addresses are different cells, and its RAM answers nowhere else. -/
theorem peek_memWrite_cartRam {s : State} {ram : Memory} {ea : Word} (v : Byte) (h : cartRam s = some ram)
    (h6 : 0x6000 ≤ ea) (h7 : ea ≤ 0x7FFF) (a : Word) :
    peek (memWrite s ea v) a = if a = ea then v else peek s a := by
  rw [memWrite_cartRam v h h6 h7]
  by_cases hw : 0x6000 ≤ a ∧ a ≤ 0x7FFF
  · have he : a = ea ↔ a.toNat % 0x2000 = ea.toNat % 0x2000 := by
      rw [← BitVec.toNat_inj]; bv_omega
    simp only [peek, memRead_cartRam (cartRam_withCartRam h _) hw.1 hw.2, memRead_cartRam h hw.1 hw.2,
      Memory.read_write, he]
  · rw [if_neg (by rintro rfl; exact hw ⟨h6, h7⟩)]
    have hf := withCartRam_frame s (ram.write (ea.toNat % 0x2000) v)
    exact peek_congr (by rw [hf]) (fun _ => by rw [hf]) (fun _ => by rw [hf]) (fun _ => by rw [hf])
      (fun _ => by rw [hf]) (by rw [hf]) (fun ha => withCartRam_map s _ (by bv_omega))

theorem peek_memWrite_register (s : State) {ea a : Word} (v : Byte) (hea : 0x8000 ≤ ea) (ha : a < 0x8000) :
    peek (memWrite s ea v) a = peek s a := by
  unfold memWrite
  split
  · rename_i c hc
    have hk := Cart.cpuMapWrite_keeps hc
    exact peek_congr rfl (fun _ => rfl) (fun _ => rfl) (fun _ => rfl) (fun _ => rfl) hk.prg
      (fun _ => Cart.cpuMapWrite_map_low hc hea ha)
  · rw [busWrite_unhandled s v (by bv_omega)]

/-- Which reads a write can change the answer of, region by region. -/
theorem peek_memWrite_unreached (s : State) {ea a : Word} (v : Byte) (h : ¬ StoreReaches ea a) :
    peek (memWrite s ea v) a = peek s a := by
  simp only [StoreReaches, not_or] at h
  obtain ⟨cell, ppu, register, self⟩ := h
  by_cases h1 : ea ≤ 0x1FFF
  · rw [peek_memWrite_ram s v h1, if_neg cell]
  by_cases h3 : ea ≤ 0x3FFF
  · have hea : PpuRange ea := ⟨by bv_omega, h3⟩
    exact peek_memWrite_ppu s v hea fun ha => ppu ⟨hea, ha⟩
  by_cases h6 : ea < 0x6000
  · exact peek_memWrite_device s v (by bv_omega) h6 self
  by_cases h8 : 0x8000 ≤ ea
  · exact peek_memWrite_register s v h8 (by rw [← BitVec.not_le]; exact fun ha => register ⟨h8, ha⟩)
  have lo : 0x6000 ≤ ea := by bv_omega
  have hi : ea ≤ 0x7FFF := by bv_omega
  cases hr : cartRam s with
  | none => rw [memWrite_noRam v hr lo hi]
  | some ram => rw [peek_memWrite_cartRam v hr lo hi, if_neg self]

/-- Settles O11: what a write reaches by region (`peek_memWrite_unreached`), what it keeps by the laws of a write, and the
cartridge's window by its equations. -/
theorem writesReachOnlyTheirRegion : Obligations.WritesReachOnlyTheirRegion := by
  intro s ea v
  have hk := memWrite_cart_keeps s ea v
  refine ⟨fun a => peek_memWrite_unreached s v, memWrite_cpu s ea v, hk.prg, hk.prgBanks, hk.chrBanks,
    by rw [memWrite_frame], by rw [memWrite_frame], by rw [memWrite_frame], by rw [memWrite_frame], fun ram hr lo hi => ?_⟩
  exact ⟨memRead_cartRam hr lo hi, peek_memWrite_cartRam v hr lo hi, _, memWrite_cartRam v hr lo hi,
    fun k => Memory.read_write _ _ _ _⟩

end Sys2Proof.Machine

/-! 20_memory R97: every step completes. The one refusal of an instruction is `exec_next_or_refuses`'s; here it is
carried up to a step, and the byte it names is one of 30_encoding R142. -/

namespace Sys2Proof

/-- An illegal instruction that the decoder answers carries an opcode of the list, whatever the operand bytes. -/
theorem decodeBytes_opcodeOk (op b1 b2 : Byte) : (decodeBytes op b1 b2).opcodeOk = true := by
  have hall : (List.range 16).all (fun i => (List.range 16).all fun j =>
      (decodeBytes (BitVec.ofNat 8 (16 * i + j)) b1 b2).opcodeOk) = true := by rfl
  have hop := op.isLt
  have hrow := List.all_eq_true.mp hall (op.toNat / 16) (List.mem_range.mpr (by omega))
  have h := List.all_eq_true.mp hrow (op.toNat % 16) (List.mem_range.mpr (Nat.mod_lt _ (by decide)))
  rwa [Nat.div_add_mod, BitVec.ofNat_toNat, BitVec.setWidth_eq] at h

theorem mem_illegalOpcodes_of_decodeBytes {op b1 b2 x y : Byte} (h : decodeBytes op b1 b2 = .ill x y) :
    x ∈ illegalOpcodes := by
  have hok := decodeBytes_opcodeOk op b1 b2
  rw [h] at hok
  exact List.contains_iff_mem.mp hok

end Sys2Proof

namespace Sys2Proof.Machine

/-- The one way an outcome is no next state: a listed illegal opcode under the policy `refuse`. -/
def CompletesOrRefuses (g : Config) (r : Result) : Prop :=
  Completes r ∨ (g.illegalPolicy = .refuse ∧ ∃ pc0 op, op ∈ illegalOpcodes ∧ r = .refused (.illegalOpcode pc0 op))

theorem CompletesOrRefuses.of_next (g : Config) (s : State) : CompletesOrRefuses g (.next s) := .inl ⟨s, rfl⟩

theorem CompletesOrRefuses.andThen {g : Config} {r : Result} (h : CompletesOrRefuses g r) (f : State → State) :
    CompletesOrRefuses g (andThen r f) := by
  obtain ⟨t, rfl⟩ | ⟨hp, pc0, op, ho, rfl⟩ := h
  · exact .of_next g (f t)
  · exact .inr ⟨hp, pc0, op, ho, rfl⟩

theorem runInstr_completesOrRefuses (s : State) : CompletesOrRefuses s.config (runInstr s) := by
  have hc : (fetch s).state.config = s.config := (paramsKept_slot.toInstrClosed.fetch s).config
  rw [← hc]
  obtain ⟨t, ht⟩ | ⟨op, b1, hi, hp, he⟩ := exec_next_or_refuses (fetch s).instr (fetch s).state
  · exact .inl ⟨t, ht⟩
  · exact .inr ⟨hp, _, op, mem_illegalOpcodes_of_decodeBytes hi, he⟩

theorem cpuSlot_completesOrRefuses (s : State) : CompletesOrRefuses s.config (cpuSlot s) := by
  have hboundary : CompletesOrRefuses s.config (boundary s) := by
    unfold boundary
    split
    · exact .of_next _ _
    · split
      · exact .of_next _ _
      · exact runInstr_completesOrRefuses (freshTemp s)
  unfold cpuSlot
  split
  · split
    · exact .of_next _ _
    · unfold cpuTick
      split
      · exact hboundary.andThen countCycle
      · exact .of_next _ _
  · exact .of_next _ _

/-- Settles O45: a step with a valid cartridge stops where its slot does; under `nop2` no slot does. -/
theorem everyStepCompletes : Obligations.EveryStepCompletes := by
  intro s hv
  have hstep : CompletesOrRefuses s.config (step s) := by
    unfold step
    rw [if_pos hv]
    exact (cpuSlot_completesOrRefuses (devicesTick s)).andThen endTick
  refine ⟨fun hp => ?_, hstep⟩
  obtain h | ⟨hr, -⟩ := hstep
  · exact h
  · rw [hp] at hr; cases hr

end Sys2Proof.Machine

/-! 30_encoding: the decoder against the encoder. An instruction is a mnemonic with a form and the operand bytes in that
form; `Instr.withBytes` puts in other bytes. The opcode byte alone fixes mnemonic and form: `opcode_decodeBytes` reads
that off the matrix of R141, `decodeBytes_of_opcode` off the list of R140. The operand bytes are put in and read back
alike for every opcode, so both directions follow. -/

namespace Sys2Proof

/-! ## An instruction with other operand bytes -/

/-- The operand of the same form (30_encoding R124) that the bytes `b1`, `b2` write. -/
def Addr.withBytes (b1 b2 : Byte) : Addr → Addr
  | .zpg _ => .zpg b1
  | .zpx _ => .zpx b1
  | .zpy _ => .zpy b1
  | .abs _ => .abs (join b2 b1)
  | .abx _ => .abx (join b2 b1)
  | .aby _ => .aby (join b2 b1)
  | .izx _ => .izx b1
  | .izy _ => .izy b1

/-- `Addr.withBytes` of an operand that is read. -/
def Src.withBytes (b1 b2 : Byte) : Src → Src
  | .imm _ => .imm b1
  | .mem m => .mem (m.withBytes b1 b2)

/-- `Addr.withBytes` of the operand of a shift. -/
def Tgt.withBytes (b1 b2 : Byte) : Tgt → Tgt
  | .acc => .acc
  | .mem m => .mem (m.withBytes b1 b2)

/-- `Addr.withBytes` of the operand of JMP. -/
def JmpTgt.withBytes (b1 b2 : Byte) : JmpTgt → JmpTgt
  | .abs _ => .abs (join b2 b1)
  | .ind _ => .ind (join b2 b1)

/-- The instruction of the same mnemonic and form whose operand bytes are `b1`, `b2`, as far as the form has them. -/
def Instr.withBytes (b1 b2 : Byte) : Instr → Instr
  | .lda o => .lda (o.withBytes b1 b2)
  | .ldx o => .ldx (o.withBytes b1 b2)
  | .ldy o => .ldy (o.withBytes b1 b2)
  | .sta m => .sta (m.withBytes b1 b2)
  | .stx m => .stx (m.withBytes b1 b2)
  | .sty m => .sty (m.withBytes b1 b2)
  | .ora o => .ora (o.withBytes b1 b2)
  | .and o => .and (o.withBytes b1 b2)
  | .eor o => .eor (o.withBytes b1 b2)
  | .adc o => .adc (o.withBytes b1 b2)
  | .sbc o => .sbc (o.withBytes b1 b2)
  | .cmp o => .cmp (o.withBytes b1 b2)
  | .cpx o => .cpx (o.withBytes b1 b2)
  | .cpy o => .cpy (o.withBytes b1 b2)
  | .bit m => .bit (m.withBytes b1 b2)
  | .asl o => .asl (o.withBytes b1 b2)
  | .lsr o => .lsr (o.withBytes b1 b2)
  | .rol o => .rol (o.withBytes b1 b2)
  | .ror o => .ror (o.withBytes b1 b2)
  | .inc m => .inc (m.withBytes b1 b2)
  | .dec m => .dec (m.withBytes b1 b2)
  | .bpl _ => .bpl b1
  | .bmi _ => .bmi b1
  | .bvc _ => .bvc b1
  | .bvs _ => .bvs b1
  | .bcc _ => .bcc b1
  | .bcs _ => .bcs b1
  | .bne _ => .bne b1
  | .beq _ => .beq b1
  | .jmp o => .jmp (o.withBytes b1 b2)
  | .jsr _ => .jsr (join b2 b1)
  | .ill op _ => .ill op b1
  | i => i

section
variable (b1 b2 : Byte)

@[simp] theorem Addr.format_withBytes (m : Addr) : (m.withBytes b1 b2).format = m.format := by cases m <;> rfl

@[simp] theorem Src.format_withBytes (o : Src) : (o.withBytes b1 b2).format = o.format := by
  cases o with
  | imm b => rfl
  | mem m => exact m.format_withBytes b1 b2

@[simp] theorem Tgt.format_withBytes (o : Tgt) : (o.withBytes b1 b2).format = o.format := by
  cases o with
  | acc => rfl
  | mem m => exact m.format_withBytes b1 b2

@[simp] theorem JmpTgt.format_withBytes (o : JmpTgt) : (o.withBytes b1 b2).format = o.format := by cases o <;> rfl

/-- Operand bytes do not enter the form. -/
@[simp] theorem Instr.format_withBytes (i : Instr) : (i.withBytes b1 b2).format = i.format := by
  cases i <;> simp [Instr.withBytes, Instr.format]

@[simp] theorem Instr.size_withBytes (i : Instr) : (i.withBytes b1 b2).size = i.size := by simp [Instr.size]

/-- Operand bytes do not enter the line of 30_encoding R140. -/
@[simp] theorem Instr.opcodes_withBytes (i : Instr) : (i.withBytes b1 b2).opcodes = i.opcodes := by cases i <;> rfl

/-! ## The operand bytes that go in come out -/

theorem Addr.bytes_withBytes (m : Addr) : (m.withBytes b1 b2).bytes = [b1, b2].take (m.format.size - 1) := by
  cases m <;> simp [Addr.withBytes, Addr.bytes, Addr.format, Format.size]

theorem Src.bytes_withBytes (o : Src) : (o.withBytes b1 b2).bytes = [b1, b2].take (o.format.size - 1) := by
  cases o with
  | imm b => rfl
  | mem m => exact m.bytes_withBytes b1 b2

theorem Tgt.bytes_withBytes (o : Tgt) : (o.withBytes b1 b2).bytes = [b1, b2].take (o.format.size - 1) := by
  cases o with
  | acc => rfl
  | mem m => exact m.bytes_withBytes b1 b2

theorem JmpTgt.bytes_withBytes (o : JmpTgt) : (o.withBytes b1 b2).bytes = [b1, b2].take (o.format.size - 1) := by
  cases o <;> simp [JmpTgt.withBytes, JmpTgt.bytes, JmpTgt.format, Format.size]

theorem Instr.operandBytes_withBytes (i : Instr) :
    (i.withBytes b1 b2).operandBytes = [b1, b2].take (i.size - 1) := by
  cases i
  case lda o | ldx o | ldy o | ora o | and o | eor o | adc o | sbc o | cmp o | cpx o | cpy o | asl o | lsr o | rol o |
      ror o | jmp o =>
    exact o.bytes_withBytes b1 b2
  case sta m | stx m | sty m | bit m | inc m | dec m => exact m.bytes_withBytes b1 b2
  case jsr target => simp [Instr.withBytes, Instr.operandBytes, Instr.size, Instr.format, Format.size]
  all_goals rfl

end

theorem Addr.withBytes_bytes (m : Addr) : m.withBytes (m.bytes.getD 0 0) (m.bytes.getD 1 0) = m := by
  cases m <;> simp [Addr.withBytes, Addr.bytes]

theorem Src.withBytes_bytes (o : Src) : o.withBytes (o.bytes.getD 0 0) (o.bytes.getD 1 0) = o := by
  cases o with
  | imm b => rfl
  | mem m => exact congrArg Src.mem m.withBytes_bytes

theorem Tgt.withBytes_bytes (o : Tgt) : o.withBytes (o.bytes.getD 0 0) (o.bytes.getD 1 0) = o := by
  cases o with
  | acc => rfl
  | mem m => exact congrArg Tgt.mem m.withBytes_bytes

theorem JmpTgt.withBytes_bytes (o : JmpTgt) : o.withBytes (o.bytes.getD 0 0) (o.bytes.getD 1 0) = o := by
  cases o <;> simp [JmpTgt.withBytes, JmpTgt.bytes]

/-- An instruction is its mnemonic and form with its operand bytes: they hold its whole operand. -/
theorem Instr.withBytes_operandBytes (i : Instr) :
    i.withBytes (i.operandBytes.getD 0 0) (i.operandBytes.getD 1 0) = i := by
  cases i
  case lda o | ldx o | ldy o | ora o | and o | eor o | adc o | sbc o | cmp o | cpx o | cpy o | asl o | lsr o | rol o |
      ror o | jmp o =>
    exact congrArg _ o.withBytes_bytes
  case sta m | stx m | sty m | bit m | inc m | dec m => exact congrArg _ m.withBytes_bytes
  case jsr target => exact congrArg Instr.jsr (Machine.join_hiByte_loByte target)
  all_goals rfl

/-! ## The opcode byte -/

/-- Two functions of a byte are equal when their 16 by 16 tables are. -/
theorem eq_of_matrix {α : Type} {f g : Byte → α}
    (h : (List.range 16).map (fun i => (List.range 16).map fun j => f (BitVec.ofNat 8 (16 * i + j))) =
      (List.range 16).map (fun i => (List.range 16).map fun j => g (BitVec.ofNat 8 (16 * i + j)))) (op : Byte) :
    f op = g op := by
  have hop := op.isLt
  have hrow := List.map_inj_left.mp h (op.toNat / 16) (List.mem_range.mpr (by omega))
  have h := List.map_inj_left.mp hrow (op.toNat % 16) (List.mem_range.mpr (Nat.mod_lt _ (by decide)))
  rwa [Nat.div_add_mod, BitVec.ofNat_toNat, BitVec.setWidth_eq] at h

/-- The decoder uses the operand bytes as `Instr.withBytes` does, whatever the opcode (30_encoding R120). -/
theorem decodeBytes_eq_withBytes (op b1 b2 : Byte) : decodeBytes op b1 b2 = (decodeBytes op 0 0).withBytes b1 b2 :=
  eq_of_matrix (f := fun op => decodeBytes op b1 b2) (g := fun op => (decodeBytes op 0 0).withBytes b1 b2) rfl op

/-- The matrix of 30_encoding R141 against the list of R140: an opcode is the one listed for what it decodes to. -/
theorem opcode_decodeBytes (op b1 b2 : Byte) :
    (decodeBytes op b1 b2).opcodes.lookup (decodeBytes op b1 b2).format = some op :=
  eq_of_matrix (f := fun op => (decodeBytes op b1 b2).opcodes.lookup (decodeBytes op b1 b2).format) (g := some) rfl op

theorem formats_decodeBytes (op b1 b2 : Byte) :
    (decodeBytes op b1 b2).formats.contains (decodeBytes op b1 b2).format = true :=
  eq_of_matrix (f := fun op => (decodeBytes op b1 b2).formats.contains (decodeBytes op b1 b2).format)
    (g := fun _ => true) rfl op

theorem wellFormed_decodeBytes (op b1 b2 : Byte) : (decodeBytes op b1 b2).WellFormed := by
  simp only [Instr.WellFormed, Instr.wf, formats_decodeBytes, decodeBytes_opcodeOk, Bool.and_self]

theorem decodeBytes_of_mem_illegalOpcodes {op : Byte} (h : op ∈ illegalOpcodes) (b1 b2 : Byte) :
    decodeBytes op b1 b2 = .ill op b1 := by
  have hall : ∀ op ∈ illegalOpcodes, decodeBytes op 0 0 = .ill op 0 := by decide
  rw [decodeBytes_eq_withBytes, hall op h]
  rfl

/-- The list of 30_encoding R140 against the matrix of R141: the opcode listed for an instruction decodes to it, up to
the operand bytes. -/
theorem decodeBytes_of_opcode {i : Instr} {op : Byte} (hok : i.opcodeOk = true) (h : i.opcodes.lookup i.format = some op)
    (b1 b2 : Byte) : decodeBytes op b1 b2 = i.withBytes b1 b2 := by
  cases i
  case lda o | ldx o | ldy o | ora o | and o | eor o | adc o | sbc o | cmp o | cpx o | cpy o =>
    cases o with
    | imm b => cases h; rfl
    | mem m => cases m <;> cases h <;> rfl
  case sta m | stx m | sty m | bit m | inc m | dec m => cases m <;> cases h <;> rfl
  case asl o | lsr o | rol o | ror o =>
    cases o with
    | acc => cases h; rfl
    | mem m => cases m <;> cases h <;> rfl
  case jmp o => cases o <;> cases h <;> rfl
  case ill x b => cases h; exact decodeBytes_of_mem_illegalOpcodes (List.contains_iff_mem.mp hok) b1 b2
  all_goals cases h; rfl

/-! ## Sizes, and the decoder on a stream of bytes -/

theorem Format.size_mem (f : Format) : f.size ∈ [1, 2, 3] := by cases f <;> decide

theorem Format.size_pos (f : Format) : 0 < f.size := by cases f <;> decide

theorem Format.size_le_three (f : Format) : f.size ≤ 3 := by cases f <;> decide

/-- The first byte alone determines the length (30_encoding R120, R144). -/
@[simp] theorem size_decodeBytes (op b1 b2 : Byte) : (decodeBytes op b1 b2).size = opcodeSize op := by
  rw [decodeBytes_eq_withBytes, Instr.size_withBytes]
  rfl

theorem opcodeSize_mem (op : Byte) : opcodeSize op ∈ [1, 2, 3] := Format.size_mem _

theorem opcodeSize_pos (op : Byte) : 0 < opcodeSize op := Format.size_pos _

theorem Instr.operandBytes_length (i : Instr) : i.operandBytes.length + 1 = i.size := by
  have hpos : 0 < i.size := i.format.size_pos
  have hle : i.size ≤ 3 := i.format.size_le_three
  rw [← i.withBytes_operandBytes, Instr.operandBytes_withBytes, Instr.size_withBytes, List.length_take,
    List.length_cons, List.length_singleton]
  omega

/-- An opcode byte and as many bytes as its length asks for are read as one instruction. -/
theorem decode_cons_append {op : Byte} {bs : List Byte} (h : bs.length + 1 = opcodeSize op) (rest : List Byte) :
    decode (op :: bs ++ rest) = .ok (decodeBytes op (bs.getD 0 0) (bs.getD 1 0)) rest := by
  have hsize := opcodeSize_mem op
  match bs with
  | [] => simp [decode, ← h]
  | [b1] => simp [decode, ← h]
  | [b1, b2] => simp [decode, ← h]
  | _ :: _ :: _ :: _ => simp [← h] at hsize

theorem Instr.WellFormed.opcodeOk {i : Instr} (w : i.WellFormed) : i.opcodeOk = true :=
  ((Bool.and_eq_true _ _).mp w).2

theorem Instr.WellFormed.exists_opcode {i : Instr} (w : i.WellFormed) : ∃ op, i.opcodes.lookup i.format = some op := by
  have hmem : i.format ∈ i.formats := List.contains_iff_mem.mp ((Bool.and_eq_true _ _).mp w).1
  exact lookup_of_mem_keys (i.formats_have_opcodes _ hmem)

/-- Settles O1: the opcode listed for the instruction decodes to its mnemonic and form (`decodeBytes_of_opcode`), and the
operand bytes hold the rest of it. -/
theorem decodeEncodeRoundTrip : Obligations.DecodeEncodeRoundTrip := by
  intro i rest w
  obtain ⟨op, hop⟩ := w.exists_opcode
  have hdecode := decodeBytes_of_opcode w.opcodeOk hop
  have hlength : i.operandBytes.length + 1 = opcodeSize op := by
    rw [i.operandBytes_length, ← size_decodeBytes op 0 0, hdecode, Instr.size_withBytes]
  simp only [encode, hop]
  rw [decode_cons_append hlength, hdecode, i.withBytes_operandBytes]

theorem operandBytes_decodeBytes (op b1 b2 : Byte) :
    (decodeBytes op b1 b2).operandBytes = [b1, b2].take (opcodeSize op - 1) := by
  rw [decodeBytes_eq_withBytes, Instr.operandBytes_withBytes]
  rfl

/-- Settles O2: both directions of the opcode map are read off the matrix (`opcode_decodeBytes`), and the operand bytes
come out as they went in. -/
theorem everyByteDecodesAndEncodesBack : Obligations.EveryByteDecodesAndEncodesBack := by
  intro op b1 b2
  refine ⟨wellFormed_decodeBytes op b1 b2, ?_⟩
  simp only [encode, opcode_decodeBytes, operandBytes_decodeBytes, size_decodeBytes]
  rw [← List.take_succ_cons, Nat.sub_add_cancel (opcodeSize_pos op)]

/-- Settles O3: the operand bytes enter neither form nor opcodes (`decodeBytes_eq_withBytes`); that decoding succeeds is
the round trip of what the bytes decode to. -/
theorem firstByteFixesLengthAndFormat : Obligations.FirstByteFixesLengthAndFormat := by
  intro op b1 b2 c1 c2
  refine ⟨?_, ?_, Format.size_mem _, fun rest => ?_⟩
  · rw [decodeBytes_eq_withBytes op b1, decodeBytes_eq_withBytes op c1]
    simp only [Instr.format_withBytes]
  · rw [decodeBytes_eq_withBytes op b1, decodeBytes_eq_withBytes op c1]
    simp only [Instr.opcodes_withBytes]
  · obtain ⟨wf, hencode⟩ := everyByteDecodesAndEncodesBack op b1 b2
    have hround := decodeEncodeRoundTrip _ ((op :: b1 :: b2 :: rest).drop (decodeBytes op b1 b2).size) wf
    rw [← hround, hencode, ← List.take_append_of_le_length (l₂ := rest) (Format.size_le_three _)]
    exact congrArg decode (List.take_append_drop _ _).symm

theorem mem_illegalOpcodes_iff (op b1 b2 : Byte) : op ∈ illegalOpcodes ↔ ∃ x y, decodeBytes op b1 b2 = .ill x y := by
  refine ⟨fun h => ⟨op, b1, decodeBytes_of_mem_illegalOpcodes h b1 b2⟩, fun ⟨x, y, h⟩ => ?_⟩
  have hx : (Instr.ill x y).opcodes.lookup .imm = some op := by
    have := opcode_decodeBytes op b1 b2
    rwa [h] at this
  cases hx
  exact mem_illegalOpcodes_of_decodeBytes h

theorem mem_illegalOpcodes_of_low_bits : ∀ op : Byte, op &&& 3 = 3 → op ∈ illegalOpcodes := by decide

/-- Settles O4: the list by counting, what its bytes decode to by `decodeBytes_of_mem_illegalOpcodes`, the converse by
`mem_illegalOpcodes_iff`. -/
theorem illegalOpcodesAreTheListedBytes : Obligations.IllegalOpcodesAreTheListedBytes := by
  refine ⟨rfl, by decide, mem_illegalOpcodes_of_low_bits, fun op b1 b2 => ⟨mem_illegalOpcodes_iff op b1 b2, fun h => ?_⟩⟩
  rw [decodeBytes_of_mem_illegalOpcodes h]
  exact ⟨rfl, rfl, rfl⟩

/-- Settles O5, by evaluating the decoder on the ten words. -/
theorem specWordsDecode : Obligations.SpecWordsDecode := by
  unfold Obligations.SpecWordsDecode
  decide

end Sys2Proof

/-! 30_encoding R126 to R134: effective addresses. `effAddr_state` says that an addressing mode changes the latch
`absolute_addr` alone; below is the address arithmetic in numbers. -/

namespace Sys2Proof.Machine

theorem zext_eq_ofNat (b : Byte) : zext b = BitVec.ofNat 16 b.toNat := by
  rw [← zext_toNat, BitVec.ofNat_toNat, BitVec.setWidth_eq]

theorem zext_add_eq_ofNat (a b : Byte) : zext (a + b) = BitVec.ofNat 16 ((a.toNat + b.toNat) % 256) := by
  rw [zext_eq_ofNat, BitVec.toNat_add]

theorem add_zext_eq_ofNat (base : Word) (b : Byte) : base + zext b = BitVec.ofNat 16 (base.toNat + b.toNat) := by
  apply BitVec.eq_of_toNat_eq
  rw [BitVec.toNat_add, zext_toNat, BitVec.toNat_ofNat]

theorem hiByte_toNat (w : Word) : (hiByte w).toNat = w.toNat / 256 := by
  have := w.isLt
  rw [hiByte, BitVec.extractLsb'_toNat, Nat.shiftRight_eq_div_pow]
  omega

/-- Two addresses are in different pages when their page numbers differ (00_scope R12). -/
theorem pageCross_eq (a b : Word) : pageCross a b = decide (a.toNat / 256 ≠ b.toNat / 256) := by
  simp only [pageCross, ne_eq, ← BitVec.toNat_inj, hiByte_toNat]

/-- Settles O6: address and page-cross bit form by form; what else a mode changes is `effAddr_state`'s to say. -/
theorem effectiveAddresses : Obligations.EffectiveAddresses := by
  intro s b1 base ptr indexed crosses gives
  have of_mode {m : Addr} {ea : Word} {cross : Bool} (hea : (modeAddr m s).ea = ea)
      (hcross : (modeAddr m s).cross = cross) : gives m ea cross := by
    subst hea hcross
    exact ⟨rfl, rfl, by rw [effAddr_state]; rfl, by rw [effAddr_state]; rfl⟩
  have hindexed (w : Word) (i : Byte) : w + zext i = indexed w i := add_zext_eq_ofNat w i
  have hcrosses (w : Word) (i : Byte) : pageCross (w + zext i) w = crosses w i := by rw [hindexed, pageCross_eq]
  have hptr (p : Byte) : (zeroPagePointer s p).1 = ptr p := by rw [zeroPagePointer_eq]
  refine ⟨of_mode (zext_eq_ofNat b1) rfl, of_mode (zext_add_eq_ofNat b1 _) rfl, of_mode (zext_add_eq_ofNat b1 _) rfl,
    of_mode rfl rfl, of_mode (hindexed base _) (hcrosses base _), of_mode (hindexed base _) (hcrosses base _),
    of_mode (hptr _) rfl, ?_⟩
  rw [← hptr]
  exact of_mode (hindexed _ _) (hcrosses _ _)

end Sys2Proof.Machine

/-! 30_encoding R122, 60_exceptions R306: a fetch reads the bytes the decoder would be given, so an instruction boundary
runs what they decode to. -/

namespace Sys2Proof

/-- The decoder on three bytes: those beyond the length are left, and count as 0. -/
theorem decode_three (op b1 b2 : Byte) :
    decode [op, b1, b2] =
      .ok (decodeBytes op (if 2 ≤ opcodeSize op then b1 else 0) (if opcodeSize op = 3 then b2 else 0))
        ([b1, b2].drop (opcodeSize op - 1)) := by
  have hsize := opcodeSize_mem op
  simp only [List.mem_cons, List.not_mem_nil, or_false] at hsize
  obtain h | h | h := hsize <;> simp [decode, h]

end Sys2Proof

namespace Sys2Proof.Machine

theorem memRead_quiet (s : State) {a : Word} (h : ¬ SideEffect a) : memRead s a = (peek s a, s) :=
  Prod.ext rfl (memRead_state s h)

/-- A fetch from addresses without side effect: the bytes that lie there, and the latch (30_encoding R122). -/
theorem fetch_quiet {s : State}
    (h : ∀ k < opcodeSize (peek s s.cpu.pc), ¬ SideEffect (s.cpu.pc + BitVec.ofNat 16 k)) :
    fetch s = ⟨peek s s.cpu.pc,
      if 2 ≤ opcodeSize (peek s s.cpu.pc) then peek s (s.cpu.pc + 1) else 0,
      if opcodeSize (peek s s.cpu.pc) = 3 then peek s (s.cpu.pc + 2) else 0,
      s.setOpcode (peek s s.cpu.pc)⟩ := by
  have h0 : ¬ SideEffect s.cpu.pc := by simpa using h 0 (opcodeSize_pos _)
  simp only [fetch, memRead_quiet s h0]
  split
  · have h1 : ¬ SideEffect (s.cpu.pc + 1) := h 1 (by omega)
    simp only [memRead_quiet s h1]
    split
    · have h2 : ¬ SideEffect (s.cpu.pc + 2) := h 2 (by omega)
      simp only [memRead_quiet s h2]
    · rfl
  · split
    · omega
    · rfl

/-- What the bytes at PC decode to is what a fetch from addresses without side effect gives to execute. -/
theorem runInstr_of_decode {s : State} {i : Instr} {rest : List Byte}
    (hdecode : decode [peek s s.cpu.pc, peek s (s.cpu.pc + 1), peek s (s.cpu.pc + 2)] = .ok i rest)
    (quiet : ∀ k < i.size, ¬ SideEffect (s.cpu.pc + BitVec.ofNat 16 k)) :
    runInstr s = exec i (s.setOpcode (peek s s.cpu.pc)) := by
  rw [decode_three] at hdecode
  obtain ⟨rfl, -⟩ := Decoded.ok.inj hdecode
  rw [size_decodeBytes] at quiet
  rw [runInstr, fetch_quiet quiet]
  rfl

theorem peek_freshTemp (s : State) (a : Word) : peek (freshTemp s) a = peek s a :=
  peek_congr rfl (fun _ => rfl) (fun _ => rfl) (fun _ => rfl) (fun _ => rfl) rfl (fun _ => rfl)

/-- The CPU's part of a tick at an instruction boundary with nothing to take is one instruction and one debited cycle
(60_exceptions R306). -/
theorem cpuSlot_of_boundary {s : State} (clock : s.systemClock % 3 = 0) (dma : s.dma.transfer = false)
    (cycles : s.cpu.remainingCycles = 0) (nmi : s.ppu.nmiLatch = false) (irq : irqPending s = false) :
    cpuSlot s = andThen (runInstr (freshTemp s)) countCycle := by
  simp [cpuSlot, cpuTick, boundary, clock, dma, cycles, nmi, irq]

theorem andThen_andThen (r : Result) (f g : State → State) :
    andThen (andThen r f) g = andThen r (fun u => g (f u)) := by cases r <;> rfl

/-- Settles O7: the slot runs one instruction (`cpuSlot_of_boundary`), the one its bytes decode to
(`runInstr_of_decode`). -/
theorem stepRunsTheDecodedInstruction : Obligations.StepRunsTheDecodedInstruction := by
  intro s i rest valid clock dma cycles d nmi irq quiet hdecode
  have irq : irqPending d = false := by simpa [irqPending] using irq
  have hrun : runInstr (freshTemp d) = exec i ((freshTemp d).setOpcode (peek d s.cpu.pc)) := by
    have hpeek : peek (freshTemp d) = peek d := funext (peek_freshTemp d)
    rw [← hpeek] at hdecode ⊢
    exact runInstr_of_decode (rest := rest) hdecode quiet
  rw [step, if_pos valid, masterTick, cpuSlot_of_boundary (s := d) clock dma cycles nmi irq, hrun, andThen_andThen]

end Sys2Proof.Machine

/-! The operand forms of 40_load_store R170 and 42_logic_arith R210: what `ReadOp` and `StoreOp` ask of every instruction
that reads one operand or stores one byte, proved once for all of them. -/

namespace Sys2Proof.Claims

open Sys2Proof.Machine

/-! ## What an instruction's end may change -/

/-- The bus looks at everything but the CPU's registers. -/
theorem OutsideCpu.peek_eq {t u : State} (h : OutsideCpu t u) (a : Word) : peek t a = peek u a := by
  rw [h, peek_withCpu]

theorem OutsideCpu.trans {t u v : State} (h : OutsideCpu t u) (k : OutsideCpu u v) : OutsideCpu t v := by
  unfold OutsideCpu at *
  rw [h, k]

/-- `SetNZ` writes N and Z from the value (00_scope R11). -/
theorem flagsNZ_of_setNZ {t : State} {p v : Byte} (h : t.cpu.p = setNZ p v) : FlagsNZ v t := by
  have hN : flag t.cpu.p .N = v.msb := by rw [h, flag_setNZ, if_pos rfl]; rfl
  refine ⟨by simp [h], ?_⟩
  rw [hN, BitVec.msb_eq_decide]
  exact decide_eq_true_iff

theorem flagsKept_of_setNZ {s t : State} {v : Byte} (h : t.cpu.p = setNZ s.cpu.p v) : FlagsKept [.N, .Z] s t := by
  intro f hf
  simp only [List.mem_cons, List.not_mem_nil, or_false, not_or] at hf
  obtain ⟨hN, hZ⟩ := hf
  rw [h, flag_setNZ, if_neg hN, if_neg hZ]

/-- `reg <- v`. -/
def Reg.set (reg : Reg) (v : Byte) (s : State) : State :=
  match reg with
  | .A => s.setA v
  | .X => s.setX v
  | .Y => s.setY v
  | .S => s.setSp v

@[simp] theorem Reg.get_set (reg r : Reg) (v : Byte) (s : State) :
    r.get (reg.set v s) = if r = reg then v else r.get s := by cases reg <;> cases r <;> rfl

theorem Reg.set_outside (reg : Reg) (v : Byte) (s : State) : OutsideCpu (reg.set v s) s := by cases reg <;> rfl

@[simp] theorem Reg.set_pc (reg : Reg) (v : Byte) (s : State) : (reg.set v s).cpu.pc = s.cpu.pc := by cases reg <;> rfl

@[simp] theorem Reg.set_totalCycleCount (reg : Reg) (v : Byte) (s : State) :
    (reg.set v s).cpu.totalCycleCount = s.cpu.totalCycleCount := by cases reg <;> rfl

/-- Neither a status write nor an instruction's end touches a register. -/
theorem Reg.get_retire_setP (r : Reg) (s : State) (p : Byte) (n k : Nat) : r.get ((s.setP p).retire n k) = r.get s := by
  cases r <;> rfl

/-! ## Reading an operand (30_encoding R137) -/

theorem readSrc_value (o : Src) (s : State) : (readSrc o s).value = operandByte o s := by
  cases o with
  | imm b1 => rfl
  | mem m => exact (readSrc_mem m s).1

theorem readSrc_cross (o : Src) (s : State) : (readSrc o s).cross = operandCross o s := by
  cases o with
  | imm b1 => rfl
  | mem m => exact (readSrc_mem m s).2.1

/-- Of the CPU an operand read writes two latches, no register and no flag. -/
theorem readSrc_cpu (o : Src) (s : State) :
    (readSrc o s).state.cpu =
      { s.cpu with
        absoluteAddr := (readSrc o s).state.cpu.absoluteAddr
        inputAlu := (readSrc o s).state.cpu.inputAlu } := by
  cases o with
  | imm b1 => rfl
  | mem m => rw [(readSrc_mem m s).2.2]

theorem readSrc_outside (o : Src) (s : State) : OutsideCpu (readSrc o s).state (afterOperand o s) := by
  cases o with
  | imm b1 => rfl
  | mem m => unfold OutsideCpu; rw [(readSrc_mem m s).2.2]; rfl

theorem readSrc_regs (o : Src) (s : State) (r : Reg) : r.get (readSrc o s).state = r.get s := by
  cases r <;> rw [Reg.get, readSrc_cpu] <;> rfl

theorem readSrc_p (o : Src) (s : State) : (readSrc o s).state.cpu.p = s.cpu.p := by rw [readSrc_cpu]

/-- A read leaves what another device answers: its side effects are on the PPU or on its own controller port
(20_memory R95). -/
theorem peek_memRead_spared (s : State) {ea a : Word} (h : SideEffect ea → a ≠ ea ∧ ¬ (PpuRange ea ∧ PpuRange a)) :
    peek (memRead s ea).2 a = peek s a := by
  by_cases hs : SideEffect ea
  · obtain ⟨self, ppu⟩ := h hs
    obtain ⟨hea, -⟩ | rfl | rfl := hs
    · obtain ⟨-, spared, -⟩ := readsAffectOnlyTheirDevice s ea a
      exact (spared hea).2 fun ha => ppu ⟨hea, ha⟩
    · rw [memRead_port0]
      exact peek_congr rfl (fun _ => rfl) (fun _ => rfl) (fun e => absurd e self) (fun _ => rfl) rfl (fun _ => rfl)
    · rw [memRead_port1]
      exact peek_congr rfl (fun _ => rfl) (fun _ => rfl) (fun _ => rfl) (fun e => absurd e self) rfl (fun _ => rfl)
  · rw [memRead_state s hs]

theorem peek_afterOperand {o : Src} {s : State} {a : Word} (h : OperandSpares o s a) :
    peek (afterOperand o s) a = peek s a := by
  cases o with
  | imm b1 => rfl
  | mem m => exact peek_memRead_spared s h

theorem readCycles_eq (o : Src) : readCycles o = readBase o.format := by
  cases o with
  | imm b1 => rfl
  | mem m => cases m <;> rfl

/-- An instruction that reads its operand and then writes only the registers `rs` and the flags `fs` of the CPU
(40 R170, 42 R210). -/
theorem readOp_of_finishRead {i : Instr} {o : Src} {rs : List Reg} {fs : List Flag} {s u : State}
    (next : exec i s = .next (finishRead o (readSrc o s) u)) (outside : OutsideCpu u (readSrc o s).state)
    (pc : u.cpu.pc = (readSrc o s).state.cpu.pc)
    (count : u.cpu.totalCycleCount = (readSrc o s).state.cpu.totalCycleCount)
    (regs : RegsKept rs (readSrc o s).state u) (flags : FlagsKept fs (readSrc o s).state u) :
    ReadOp i o rs fs s (finishRead o (readSrc o s) u) := by
  have hout : OutsideCpu (finishRead o (readSrc o s) u) (afterOperand o s) :=
    .trans (u := u) rfl (outside.trans (readSrc_outside o s))
  refine ⟨next, fun r hr => ?_, fun f hf => ?_, ⟨?_, ?_, ?_⟩, hout, fun a ha => ?_⟩
  · rw [← readSrc_regs o s r, ← regs r hr]
    cases r <;> rfl
  · rw [← readSrc_p o s]
    exact flags f hf
  · rw [finishRead, retire_cpu, pc, readSrc_cpu]
    rfl
  · rw [finishRead, retire_cpu, readCycles_eq, readSrc_cross]
    rfl
  · rw [finishRead, retire_cpu, count, readSrc_cpu]
  · rw [hout.peek_eq, peek_afterOperand ha]

/-- A load: the register and N and Z get the operand (40 R171 to R173). -/
theorem readOp_of_load {i : Instr} {o : Src} {s : State} (reg : Reg)
    (next : exec i s = .next (finishRead o (readSrc o s)
      ((reg.set (readSrc o s).value (readSrc o s).state).setP
        (setNZ (readSrc o s).state.cpu.p (readSrc o s).value)))) :
    ∃ t, ReadOp i o [reg] [.N, .Z] s t ∧ reg.get t = operandByte o s ∧ FlagsNZ (reg.get t) t := by
  refine ⟨_, readOp_of_finishRead next (.trans (v := (readSrc o s).state) rfl (reg.set_outside _ _)) (reg.set_pc _ _)
    (reg.set_totalCycleCount _ _) (fun r hr => ?_) (flagsKept_of_setNZ rfl), ?_⟩
  · exact (reg.get_set r _ _).trans (if_neg fun e => hr (List.mem_singleton.mpr e))
  · rw [finishRead, Reg.get_retire_setP, Reg.get_set, if_pos rfl]
    exact ⟨readSrc_value o s, flagsNZ_of_setNZ rfl⟩

/-! ## Storing a byte (40 R170) -/

theorem storeCycles_eq (m : Addr) : storeCycles m = storeBase m.format := by cases m <;> rfl

/-- A store is one bus write at the effective address; of the CPU it writes the latch, PC and the cycles (40 R170). -/
theorem store_eq (m : Addr) (v : Byte) (s : State) :
    store m v s =
      { memWrite s (effAddr m s).ea v with
        cpu := { s.cpu with
          absoluteAddr := (effAddr m s).ea
          pc := after s m.format.size
          remainingCycles := storeBase m.format } } := by
  rw [store, storeTo_eq, storeCycles_eq]
  rfl

/-- The store instructions: no register, no flag, no page-cross cycle (40 R174 to R176). -/
theorem storeOp_of_store {i : Instr} {m : Addr} {v : Byte} {s : State} (next : exec i s = .next (store m v s)) :
    ∃ t, StoreOp i m v s t := by
  rw [store_eq] at next
  refine ⟨_, next, fun r _ => ?_, rfl, ⟨rfl, rfl, rfl⟩, rfl, fun a ha => ?_, fun a ha => ?_⟩
  · cases r <;> rfl
  · rw [peek_withCpu, peek_memWrite_ram s v ha.1, if_pos ha]
  · rw [peek_withCpu, peek_memWrite_unreached s v ha]

/-! ## The load and store instructions -/

/-- Settles O12: the encodings by the decoder's matrix, the three loads as instances of `readOp_of_load`. -/
theorem loadsSetTheRegister : Obligations.LoadsSetTheRegister := by
  refine ⟨?_, fun o s => ⟨readOp_of_load .A rfl, readOp_of_load .X rfl, readOp_of_load .Y rfl⟩⟩
  unfold AluEncodings
  and_intros <;> exact fun _ _ => rfl

/-- Settles O13: the encodings by the decoder's matrix, the three stores as instances of `storeOp_of_store`. -/
theorem storesWriteTheRegister : Obligations.StoresWriteTheRegister := by
  refine ⟨?_, fun m s => ⟨storeOp_of_store rfl, storeOp_of_store rfl, storeOp_of_store rfl⟩⟩
  and_intros <;> exact fun _ _ => rfl

end Sys2Proof.Claims

/-! 41_transfer_stack R191 to R200: the stack's cell seen through the bus, and what `RegOp` and a push ask of every
instruction of this shape, proved once for all of them. -/

namespace Sys2Proof.Claims

open Sys2Proof.Machine

/-! ## Registers -/

@[simp] theorem Reg.get_retire (r : Reg) (s : State) (n k : Nat) : r.get (s.retire n k) = r.get s := by
  cases r <;> rfl

theorem Reg.set_regsKept (reg : Reg) (v : Byte) (s : State) : RegsKept [reg] s (reg.set v s) := by
  intro r hr
  rw [Reg.get_set, if_neg fun e => hr (List.mem_singleton.mpr e)]

/-! ## The stack seen through the bus (10_state R24) -/

/-- A push is seen at the cell S points to and its mirrors only. -/
theorem peek_push (s : State) (v : Byte) (a : Word) :
    peek (push s v) a = if SameCell (stackAddr s.cpu.sp) a then v else peek s a :=
  (peek_withCpu _ _ a).trans (peek_memWrite_ram s v (stackAddr_low _) a)

theorem push_cpu (s : State) (v : Byte) : (push s v).cpu = { s.cpu with sp := s.cpu.sp - 1 } := by rw [push_eq]; rfl

theorem push_onlyRam (s : State) (v : Byte) : OnlyRam (push s v) s := by rw [push_eq]; rfl

theorem push_regsKept (s : State) (v : Byte) : RegsKept [.S] s (push s v) := by
  rw [push_eq]
  exact Reg.set_regsKept .S _ _

/-- A pull answers the byte above S and changes nothing but S. -/
theorem pop_eq_peek (s : State) : pop s = (peek s (stackAddr (s.cpu.sp + 1)), s.setSp (s.cpu.sp + 1)) := by
  rw [pop_eq, peek, memRead_ram s (stackAddr_low _), stackAddr_index]

/-! ## Instructions that touch nothing outside the CPU -/

/-- An instruction that writes only the registers `rs` and the flags `fs` before it ends. -/
theorem regOp_of_retire {i : Instr} {rs : List Reg} {fs : List Flag} {n k : Nat} {s u : State}
    (next : exec i s = .next (u.retire n k)) (outside : OutsideCpu u s) (pc : u.cpu.pc = s.cpu.pc)
    (count : u.cpu.totalCycleCount = s.cpu.totalCycleCount) (regs : RegsKept rs s u) (flags : FlagsKept fs s u) :
    RegOp i rs fs n k s (u.retire n k) := by
  have hout : OutsideCpu (u.retire n k) s := .trans (u := u) rfl outside
  refine ⟨next, fun r hr => ?_, flags, ⟨?_, rfl, count⟩, hout, hout.peek_eq⟩
  · rw [Reg.get_retire, regs r hr]
  · rw [retire_cpu, pc]
    rfl

/-- `reg <- v; SetNZ(v)` and nothing else (41 R191 to R195). -/
theorem regOp_of_set {i : Instr} {n k : Nat} {v : Byte} {s : State} (reg : Reg)
    (next : exec i s = .next (((reg.set v s).setP (setNZ s.cpu.p v)).retire n k)) :
    ∃ t, RegOp i [reg] [.N, .Z] n k s t ∧ reg.get t = v ∧ FlagsNZ v t := by
  refine ⟨_, regOp_of_retire next (.trans (u := reg.set v s) rfl (reg.set_outside v s)) (reg.set_pc v s)
    (reg.set_totalCycleCount v s) (reg.set_regsKept v s) (flagsKept_of_setNZ rfl), ?_, flagsNZ_of_setNZ rfl⟩
  rw [Reg.get_retire_setP, Reg.get_set, if_pos rfl]

/-! ## The transfer instructions -/

/-- Settles O14: the encodings by the decoder's matrix; the five transfers with flags are instances of `regOp_of_set`,
TXS writes S alone. -/
theorem transfersCopyTheRegister : Obligations.TransfersCopyTheRegister := by
  refine ⟨?_, fun s => ⟨regOp_of_set .X rfl, regOp_of_set .Y rfl, regOp_of_set .A rfl, regOp_of_set .A rfl,
    regOp_of_set .X rfl, ?_⟩⟩
  · and_intros <;> exact fun _ _ => rfl
  · exact ⟨_, regOp_of_retire (u := s.setSp s.cpu.x) rfl rfl rfl rfl (Reg.set_regsKept .S _ s) fun _ _ => rfl, rfl⟩

/-! ## The stack instructions -/

/-- The push instructions: the byte into the stack's cell, S one lower, P unchanged (41 R197, R198). -/
theorem exec_push {i : Instr} {v : Byte} {s : State} (next : exec i s = .next ((push s v).retire 1 3)) :
    ∃ t, exec i s = .next t ∧ t.cpu.sp = s.cpu.sp - 1 ∧ RegsKept [.S] s t ∧ t.cpu.p = s.cpu.p ∧
      Ends s t (after s 1) 3 ∧ OnlyRam t s ∧
      ∀ a, peek t a = if SameCell (stackAddr s.cpu.sp) a then v else peek s a := by
  have ends : Ends s ((push s v).retire 1 3) (after s 1) 3 := by
    rw [Ends, retire_cpu, push_cpu]
    exact ⟨rfl, rfl, rfl⟩
  have ram : OnlyRam ((push s v).retire 1 3) s := by
    rw [push_eq]
    rfl
  refine ⟨_, next, ?_, fun r hr => ?_, push_p s v, ends, ram, fun a => ?_⟩
  · rw [retire_cpu, push_cpu]
  · rw [Reg.get_retire, push_regsKept s v r hr]
  · rw [State.retire, State.setPc, State.setCycles, peek_withCpu, peek_withCpu, peek_push]

/-- Settles O15: both pushes are instances of `exec_push`. -/
theorem pushesWriteOneStackCell : Obligations.PushesWriteOneStackCell :=
  ⟨⟨fun _ _ => rfl, fun _ _ => rfl⟩, fun _ => ⟨exec_push rfl, exec_push rfl⟩⟩

/-- PLA: the pulled byte into A, N and Z from it (41 R199). -/
theorem exec_pla (s : State) :
    exec .pla s = .next ((((s.setSp (s.cpu.sp + 1)).setA (peek s (stackAddr (s.cpu.sp + 1)))).setP
      (setNZ s.cpu.p (peek s (stackAddr (s.cpu.sp + 1))))).retire 1 4) := by
  change execPla s = _
  rw [execPla, pop_eq_peek]
  rfl

/-- PLP: the pulled byte into P without its bits 4 and 5 (41 R200). -/
theorem exec_plp (s : State) :
    exec .plp s = .next (((s.setSp (s.cpu.sp + 1)).setP
      (pulledStatus (peek s (stackAddr (s.cpu.sp + 1))))).retire 1 4) := by
  change execPlp s = _
  rw [execPlp, pop_eq_peek]

/-- Settles O16: by `exec_pla` and `exec_plp` neither pull touches anything outside the CPU; PLP may write every flag. -/
theorem pullsReadOneStackCell : Obligations.PullsReadOneStackCell := by
  refine ⟨⟨fun _ _ => rfl, fun _ _ => rfl⟩, fun s => ⟨?_, ?_⟩⟩
  · refine ⟨_, regOp_of_retire (exec_pla s) rfl rfl rfl (fun r hr => ?_) (flagsKept_of_setNZ rfl), rfl, rfl,
      flagsNZ_of_setNZ rfl⟩
    cases r with
    | A | S => simp at hr
    | X | Y => rfl
  · refine ⟨_, regOp_of_retire (exec_plp s) rfl rfl rfl (Reg.set_regsKept .S _ s) (fun f hf => ?_), rfl, rfl⟩
    cases f <;> simp at hf

end Sys2Proof.Claims

/-! 42_logic_arith R210 to R220: what `ReadOp` asks of the instructions that compute A and P, or P alone, from one
operand, proved once for both shapes; and the sum, carry and overflow of `adc` and `sbc` as numbers. -/

namespace Sys2Proof.Machine

/-! ## The status bits as numbers -/

theorem getLsbD_seven_iff (v : Byte) : v.getLsbD 7 = true ↔ 128 ≤ v.toNat := by
  have h : v.getLsbD 7 = v.msb := rfl
  rw [h, BitVec.msb_eq_decide]
  exact decide_eq_true_iff

/-- The mask of bit 7 in the V formula (42 R214). -/
theorem and_0x80_ne_zero_iff (v : Byte) : v &&& 0x80 ≠ 0 ↔ v.getLsbD 7 = true := by
  have h : (0x80 : Byte) = BitVec.twoPow 8 7 := rfl
  rw [h, BitVec.and_twoPow]
  cases v.getLsbD 7 <;> decide

theorem toNat_xor_0xFF (m : Byte) : (m ^^^ 0xFF).toNat = 255 - m.toNat := by
  have h : m ^^^ 0xFF = ~~~m := BitVec.xor_allOnes
  rw [h, BitVec.toNat_not]

theorem toInt_xor_0xFF (m : Byte) : (m ^^^ 0xFF).toInt = -m.toInt - 1 := by
  have h := toNat_xor_0xFF m
  have hm := m.isLt
  rw [BitVec.toInt_eq_toNat_cond, BitVec.toInt_eq_toNat_cond, h]
  split <;> split <;> omega

/-! ## ADC and SBC (42 R214, R215, R220) -/

theorem toNat_adc (a m p : Byte) : (adc a m p).1.toNat = (a.toNat + m.toNat + carry p) % 256 := by
  rw [adc_result, BitVec.toNat_ofNat]

/-- The result's N and Z are ADC's last status write. -/
theorem adc_status (a m p : Byte) : ∃ q, (adc a m p).2 = setNZ q (adc a m p).1 := ⟨_, rfl⟩

/-- Both inputs of one sign and the result of the other is the signed sum leaving the range of a byte (42 R220). -/
theorem flag_adc_overflow_iff (a m p : Byte) :
    flag (adc a m p).2 .V = true ↔
      a.toInt + m.toInt + carry p < -128 ∨ 127 < a.toInt + m.toInt + carry p := by
  have hr := toNat_adc a m p
  have hc := carry_le_one p
  have ha := a.isLt
  have hm := m.isLt
  have signs : flag (adc a m p).2 .V = true ↔
      (128 ≤ a.toNat ↔ 128 ≤ m.toNat) ∧ ¬ (128 ≤ a.toNat ↔ 128 ≤ (adc a m p).1.toNat) := by
    rw [flag_adc_overflow, decide_eq_true_iff, and_0x80_ne_zero_iff, ← getLsbD_seven_iff, ← getLsbD_seven_iff,
      ← getLsbD_seven_iff]
    simp
  rw [signs, BitVec.toInt_eq_toNat_cond, BitVec.toInt_eq_toNat_cond, hr]
  split <;> split <;> omega

/-- The borrow is the absent carry (42 R215). -/
theorem borrow_eq (p : Byte) : (!flag p .C).toNat = 1 - carry p := by
  unfold carry
  cases flag p .C <;> rfl

theorem toNat_sbc (a m p : Byte) :
    (sbc a m p).1.toNat = (a.toNat + 256 - m.toNat + 256 - (!flag p .C).toNat) % 256 := by
  have hc := carry_le_one p
  have hm := m.isLt
  rw [sbc, toNat_adc, toNat_xor_0xFF, borrow_eq]
  omega

theorem flag_sbc_carry_iff (a m p : Byte) :
    flag (sbc a m p).2 .C = true ↔ m.toNat + (!flag p .C).toNat ≤ a.toNat := by
  have hc := carry_le_one p
  have hm := m.isLt
  rw [sbc, flag_adc_carry, decide_eq_true_iff, toNat_xor_0xFF, borrow_eq]
  omega

theorem carry_intCast (p : Byte) : (carry p : Int) = if flag p .C then 1 else 0 := by
  unfold carry
  cases flag p .C <;> rfl

end Sys2Proof.Machine

namespace Sys2Proof.Claims

open Sys2Proof.Machine

/-! ## The instructions that write A and P -/

theorem readSrc_a (o : Src) (s : State) : (readSrc o s).state.cpu.a = s.cpu.a := readSrc_regs o s .A

theorem accumulate_a (f : Byte → Byte → Byte → Byte × Byte) (o : Src) (s : State) :
    (accumulate f o s).cpu.a = (f s.cpu.a (operandByte o s) s.cpu.p).1 := by
  rw [← readSrc_value, ← readSrc_p o s, ← readSrc_a o s]
  rfl

theorem accumulate_p (f : Byte → Byte → Byte → Byte × Byte) (o : Src) (s : State) :
    (accumulate f o s).cpu.p = (f s.cpu.a (operandByte o s) s.cpu.p).2 := by
  rw [← readSrc_value, ← readSrc_p o s, ← readSrc_a o s]
  rfl

/-- `A, P <- f(A, M, P)`: of the flags it may write those `f` does. -/
theorem readOp_of_accumulate {i : Instr} {o : Src} {fs : List Flag} {s : State}
    {f : Byte → Byte → Byte → Byte × Byte} (next : exec i s = .next (accumulate f o s))
    (kept : ∀ g, g ∉ fs → flag (f s.cpu.a (operandByte o s) s.cpu.p).2 g = flag s.cpu.p g) :
    ReadOp i o [.A] fs s (accumulate f o s) := by
  refine readOp_of_finishRead next rfl rfl rfl (Reg.set_regsKept .A _ (readSrc o s).state) fun g hg => ?_
  change flag (accumulate f o s).cpu.p g = _
  rw [accumulate_p, kept g hg, readSrc_p]

/-- A bitwise operation `f`, on each bit `b`: A gets the result, N and Z describe it (42 R211 to R213). -/
theorem readOp_of_logic {i : Instr} {o : Src} {s : State} {f : Byte → Byte → Byte} {b : Bool → Bool → Bool}
    (next : exec i s = .next (accumulate (fun a m p => (f a m, setNZ p (f a m))) o s))
    (bits : ∀ a m k, (f a m).getLsbD k = b (a.getLsbD k) (m.getLsbD k)) :
    ∃ t, ReadOp i o [.A] [.N, .Z] s t ∧ FlagsNZ t.cpu.a t ∧
      ∀ k, t.cpu.a.getLsbD k = b (s.cpu.a.getLsbD k) ((operandByte o s).getLsbD k) := by
  have ha := accumulate_a (fun a m p => (f a m, setNZ p (f a m))) o s
  have hp := accumulate_p (fun a m p => (f a m, setNZ p (f a m))) o s
  refine ⟨_, readOp_of_accumulate next fun g hg => ?_, ?_, fun k => ?_⟩
  · rw [← hp]
    exact flagsKept_of_setNZ hp g hg
  · rw [ha]
    exact flagsNZ_of_setNZ hp
  · rw [ha]
    exact bits _ _ k

/-- An addition of `m`, the operand or its complement, to A with the carry (42 R214, R215). -/
theorem readOp_of_adc {i : Instr} {o : Src} {s : State} {f : Byte → Byte → Byte → Byte × Byte} {m : Byte}
    (next : exec i s = .next (accumulate f o s))
    (value : f s.cpu.a (operandByte o s) s.cpu.p = adc s.cpu.a m s.cpu.p) :
    ∃ t, ReadOp i o [.A] [.C, .V, .N, .Z] s t ∧ FlagsNZ t.cpu.a t ∧
      t.cpu.a = (adc s.cpu.a m s.cpu.p).1 ∧ t.cpu.p = (adc s.cpu.a m s.cpu.p).2 := by
  have ha := accumulate_a f o s
  have hp := accumulate_p f o s
  rw [value] at ha hp
  obtain ⟨q, hq⟩ := adc_status s.cpu.a m s.cpu.p
  refine ⟨_, readOp_of_accumulate next fun g hg => ?_, ?_, ha, hp⟩
  · obtain ⟨hC, hV, hN, hZ⟩ : g ≠ .C ∧ g ≠ .V ∧ g ≠ .N ∧ g ≠ .Z := by simpa using hg
    rw [value, flag_adc_other _ _ _ _ hC hV hZ hN]
  · rw [ha]
    exact flagsNZ_of_setNZ (hp.trans hq)

/-- Settles O17: the encodings by the decoder's matrix; ORA, AND and EOR are instances of `readOp_of_logic`. -/
theorem logicWritesTheAccumulator : Obligations.LogicWritesTheAccumulator := by
  refine ⟨?_, fun o s => ⟨readOp_of_logic rfl fun _ _ _ => BitVec.getLsbD_or,
    readOp_of_logic rfl fun _ _ _ => BitVec.getLsbD_and, readOp_of_logic rfl fun _ _ _ => BitVec.getLsbD_xor⟩⟩
  unfold AluEncodings
  and_intros <;> exact fun _ _ => rfl

/-- Settles O18: ADC is the instance of `readOp_of_adc` at the operand itself. -/
theorem adcAddsWithCarry : Obligations.AdcAddsWithCarry := by
  refine ⟨?_, fun o s => ?_⟩
  · unfold AluEncodings
    and_intros <;> exact fun _ _ => rfl
  · obtain ⟨t, op, nz, ha, hp⟩ := readOp_of_adc (i := .adc o) (o := o) (s := s) rfl rfl
    refine ⟨t, op, ?_, ?_, ?_, nz⟩
    · rw [ha, toNat_adc]
      rfl
    · rw [hp, flag_adc_carry]
      exact decide_eq_true_iff
    · rw [hp, flag_adc_overflow, ha]
      exact decide_eq_true_iff

/-- Settles O19: SBC is the instance of `readOp_of_adc` at the complemented operand. -/
theorem sbcSubtractsWithBorrow : Obligations.SbcSubtractsWithBorrow := by
  refine ⟨?_, fun o s => ?_⟩
  · unfold AluEncodings
    and_intros <;> exact fun _ _ => rfl
  · obtain ⟨t, op, nz, ha, hp⟩ := readOp_of_adc (i := .sbc o) (o := o) (s := s) rfl rfl
    refine ⟨t, op, ?_, ?_, ?_, nz⟩
    · rw [ha]
      exact toNat_sbc _ _ _
    · rw [hp]
      exact flag_sbc_carry_iff _ _ _
    · rw [hp, flag_adc_overflow, ha]
      exact decide_eq_true_iff

/-- Settles O20: ADC's flag by `flag_adc_overflow_iff`; SBC's too, as the complement of `m` is `-m - 1`. -/
theorem overflowIsSignedOverflow : Obligations.OverflowIsSignedOverflow := by
  intro o s t
  refine ⟨fun h => ?_, fun h => ?_⟩
  · obtain rfl : accumulate adc o s = t := Host.Outcome.next.inj h
    rw [accumulate_p, flag_adc_overflow_iff, carry_intCast]
  · obtain rfl : accumulate sbc o s = t := Host.Outcome.next.inj h
    rw [accumulate_p, sbc, flag_adc_overflow_iff, carry_intCast, toInt_xor_0xFF]
    omega

/-! ## The instructions that write P alone -/

/-- `P <- p`: no register is written. -/
theorem readOp_of_setP {i : Instr} {o : Src} {fs : List Flag} {p : Byte} {s : State}
    (next : exec i s = .next (finishRead o (readSrc o s) ((readSrc o s).state.setP p)))
    (kept : ∀ g, g ∉ fs → flag p g = flag s.cpu.p g) :
    ∃ t, ReadOp i o [] fs s t ∧ t.cpu.p = p := by
  refine ⟨_, readOp_of_finishRead next rfl rfl rfl (fun r _ => by cases r <;> rfl) fun g hg => ?_, rfl⟩
  rw [readSrc_p]
  exact kept g hg

/-- A compare of a register with the operand (42 R216 to R218). -/
theorem readOp_of_compare {i : Instr} {o : Src} {s : State} (reg : Reg)
    (next : exec i s = .next (compareWith reg.get o s)) :
    ∃ t, ReadOp i o [] [.C, .Z, .N] s t ∧
      (flag t.cpu.p .C = true ↔ (operandByte o s).toNat ≤ (reg.get s).toNat) ∧
      (flag t.cpu.p .Z = true ↔ reg.get s = operandByte o s) ∧
      (flag t.cpu.p .N = true ↔ 128 ≤ ((reg.get s).toNat + 256 - (operandByte o s).toNat) % 256) := by
  rw [compareWith, readSrc_regs, readSrc_value, readSrc_p] at next
  obtain ⟨t, op, hp⟩ := readOp_of_setP (fs := [.C, .Z, .N]) next fun g hg => by
    obtain ⟨hC, hZ, hN⟩ : g ≠ .C ∧ g ≠ .Z ∧ g ≠ .N := by simpa using hg
    rw [flag_compare, if_neg hN, if_neg hZ, if_neg hC]
  refine ⟨t, op, ?_, ?_, ?_⟩
  · rw [hp, flag_compare, if_neg (by decide), if_neg (by decide), if_pos rfl, decide_eq_true_iff, BitVec.le_def]
  · rw [hp, flag_compare, if_neg (by decide), if_pos rfl, decide_eq_true_iff]
    exact sub_eq_zero
  · have hm := (operandByte o s).isLt
    rw [hp, flag_compare, if_pos rfl, getLsbD_seven_iff, BitVec.toNat_sub]
    omega

/-- Settles O21: the encodings by the decoder's matrix, the three compares as instances of `readOp_of_compare`. -/
theorem comparesSetCarryZeroNegative : Obligations.ComparesSetCarryZeroNegative := by
  refine ⟨?_, fun o s => ⟨readOp_of_compare .A rfl, readOp_of_compare .X rfl, readOp_of_compare .Y rfl⟩⟩
  unfold AluEncodings
  and_intros <;> exact fun _ _ => rfl

/-- BIT writes the tested status over P. -/
theorem exec_bit (m : Addr) (s : State) :
    exec (.bit m) s = .next (finishRead (.mem m) (readSrc (.mem m) s)
      ((readSrc (.mem m) s).state.setP (bitTest s.cpu.a (operandByte (.mem m) s) s.cpu.p))) := by
  rw [← readSrc_value, ← readSrc_p (.mem m) s, ← readSrc_a (.mem m) s]
  rfl

/-- Settles O22: the encodings by the decoder's matrix, the flags by `flag_bitTest`. -/
theorem bitTestsTheOperand : Obligations.BitTestsTheOperand := by
  refine ⟨?_, fun m s => ?_⟩
  · and_intros <;> exact fun _ _ => rfl
  · obtain ⟨t, op, hp⟩ := readOp_of_setP (fs := [.Z, .N, .V]) (exec_bit m s) fun g hg => by
      obtain ⟨hZ, hN, hV⟩ : g ≠ .Z ∧ g ≠ .N ∧ g ≠ .V := by simpa using hg
      rw [flag_bitTest, if_neg hV, if_neg hN, if_neg hZ]
    refine ⟨t, op, ?_, ?_, ?_⟩ <;> simp [hp]

end Sys2Proof.Claims

/-! 43_shift_incdec R230 to R240: the results and ejected bits of the shifts as numbers, and what `ModifyOp` and
`RegOp` ask of every instruction that modifies a byte in place, proved once for all of them. -/

namespace Sys2Proof.Machine

/-! ## The shifts as numbers (43 R231 to R234) -/

theorem toNat_getLsbD (v : Byte) (k : Nat) : (v.getLsbD k).toNat = v.toNat / 2 ^ k % 2 := Nat.toNat_testBit _ _

theorem toNat_getLsbD_seven (v : Byte) : (v.getLsbD 7).toNat = v.toNat / 128 := by
  have hv := v.isLt
  rw [toNat_getLsbD]
  omega

theorem toNat_getLsbD_zero (v : Byte) : (v.getLsbD 0).toNat = v.toNat % 2 := by
  rw [toNat_getLsbD, pow_zero, Nat.div_one]

theorem toNat_shiftLeft_one (v : Byte) : (v <<< 1).toNat = 2 * v.toNat % 256 := by
  rw [BitVec.toNat_shiftLeft, Nat.shiftLeft_eq, pow_one, mul_comm]

theorem toNat_shiftRight_one (v : Byte) : (v >>> 1).toNat = v.toNat / 2 := by
  rw [BitVec.toNat_ushiftRight, Nat.shiftRight_eq_div_pow, pow_one]

theorem toNat_ofNat_carry (p : Byte) : (BitVec.ofNat 8 (carry p)).toNat = carry p := by
  have hc := carry_le_one p
  rw [BitVec.toNat_ofNat]
  omega

/-- The carry enters at the bit that the left shift freed. -/
theorem toNat_rol (m p : Byte) : (rol m p).1.toNat = (2 * m.toNat + carry p) % 256 := by
  have hc := carry_le_one p
  have high : (m <<< 1).toNat = (m.toNat % 128) <<< 1 := by
    rw [toNat_shiftLeft_one, Nat.shiftLeft_eq]
    omega
  rw [rol, BitVec.toNat_or, toNat_ofNat_carry, high, ← Nat.shiftLeft_add_eq_or_of_lt (by omega), Nat.shiftLeft_eq]
  omega

/-- The carry enters at the bit that the right shift freed. -/
theorem toNat_ror (m p : Byte) : (ror m p).1.toNat = 128 * carry p + m.toNat / 2 := by
  have hc := carry_le_one p
  have hm := m.isLt
  have high : (BitVec.ofNat 8 (carry p) <<< 7).toNat = carry p <<< 7 := by
    rw [BitVec.toNat_shiftLeft, toNat_ofNat_carry, Nat.shiftLeft_eq]
    omega
  rw [ror, BitVec.toNat_or, high, toNat_shiftRight_one, ← Nat.shiftLeft_add_eq_or_of_lt (by omega), Nat.shiftLeft_eq]
  omega

/-- `f` computes the byte `result` and ejects the bit `carryOut`, as numbers of the byte and the carry in; its status is
C from the ejected bit and N and Z from the result. -/
def ShiftsTo (f : Byte → Byte → Byte × Byte) (result carryOut : Byte → Nat → Nat) : Prop :=
  ∀ m p, ∃ b : Bool, (f m p).2 = setNZ (setFlag p .C b) (f m p).1 ∧
    (f m p).1.toNat = result m (carry p) ∧ b.toNat = carryOut m (carry p)

theorem asl_shiftsTo : ShiftsTo asl (fun m _ => 2 * m.toNat % 256) (fun m _ => m.toNat / 128) :=
  fun m _ => ⟨_, rfl, toNat_shiftLeft_one m, toNat_getLsbD_seven m⟩

theorem lsr_shiftsTo : ShiftsTo lsr (fun m _ => m.toNat / 2) (fun m _ => m.toNat % 2) :=
  fun m _ => ⟨_, rfl, toNat_shiftRight_one m, toNat_getLsbD_zero m⟩

theorem rol_shiftsTo : ShiftsTo rol (fun m c => (2 * m.toNat + c) % 256) (fun m _ => m.toNat / 128) :=
  fun m p => ⟨_, rfl, toNat_rol m p, toNat_getLsbD_seven m⟩

theorem ror_shiftsTo : ShiftsTo ror (fun m c => 128 * c + m.toNat / 2) (fun m _ => m.toNat % 2) :=
  fun m p => ⟨_, rfl, toNat_ror m p, toNat_getLsbD_zero m⟩

/-! ## A byte more or less (43 R235 to R240) -/

theorem toNat_add_one (v : Byte) : (v + 1).toNat = (v.toNat + 1) % 256 := BitVec.toNat_add v 1

theorem toNat_sub_one (v : Byte) : (v - 1).toNat = (v.toNat + 255) % 256 := by
  rw [BitVec.toNat_sub, add_comm]
  rfl

end Sys2Proof.Machine

namespace Sys2Proof.Claims

open Sys2Proof.Machine

/-! ## Modifying a byte of memory (43 R230) -/

theorem modifyCyclesAt_eq {m : Addr} (h : m.format ∈ [.zpg, .zpx, .abs, .abx]) :
    modifyCyclesAt m = modifyBase m.format := by
  cases m with
  | zpg | zpx | abs | abx => rfl
  | zpy | aby | izx | izy => simp [Addr.format] at h

/-- A read-modify-write is one bus read and one bus write; of the CPU it writes two latches, P, PC and the cycles. -/
theorem stepMem_eq (f : Byte → Byte → Byte × Byte) (m : Addr) (s : State) :
    stepMem f m s =
      { memWrite (memRead s (effAddr m s).ea).2 (effAddr m s).ea (f (peek s (effAddr m s).ea) s.cpu.p).1 with
        cpu := { s.cpu with
          absoluteAddr := (effAddr m s).ea
          inputAlu := peek s (effAddr m s).ea
          p := (f (peek s (effAddr m s).ea) s.cpu.p).2
          pc := after s m.format.size
          remainingCycles := modifyCyclesAt m } } := by
  rw [stepMem, modifyMem_eq]
  rfl

/-- What a write of `ea` does not reach, the read of `ea` before it spares. -/
theorem peek_memWrite_memRead {s : State} {ea a : Word} (v : Byte) (h : ¬ StoreReaches ea a) :
    peek (memWrite (memRead s ea).2 ea v) a = peek s a := by
  have spared : a ≠ ea ∧ ¬ (PpuRange ea ∧ PpuRange a) :=
    ⟨fun e => h (.inr (.inr (.inr e))), fun e => h (.inr (.inl e))⟩
  rw [peek_memWrite_unreached _ v h, peek_memRead_spared s fun _ => spared]

/-- `M, P <- f(M, P)`: of the flags it may write those `f` does. -/
theorem modifyOp_of_stepMem {i : Instr} {m : Addr} {fs : List Flag} {s : State} {f : Byte → Byte → Byte × Byte}
    (next : exec i s = .next (stepMem f m s))
    (kept : ∀ g, g ∉ fs → flag (f (peek s (effAddr m s).ea) s.cpu.p).2 g = flag s.cpu.p g) :
    ∃ t, ModifyOp i m (f (peek s (effAddr m s).ea) s.cpu.p).1 fs s t ∧
      t.cpu.p = (f (peek s (effAddr m s).ea) s.cpu.p).2 := by
  rw [stepMem_eq] at next
  refine ⟨_, ⟨next, fun r _ => ?_, kept, rfl, modifyCyclesAt_eq, rfl, fun a ha => ?_, fun a ha => ?_⟩, rfl⟩
  · cases r <;> rfl
  · rw [peek_withCpu, peek_memWrite_ram _ _ ha.1, if_pos ha]
  · rw [peek_withCpu, peek_memWrite_memRead _ ha]

/-! ## The shift instructions -/

/-- The encodings of a shift are entries of the decoder's matrix. -/
theorem shiftEncodings : ShiftEncodings 0x00 .asl ∧ ShiftEncodings 0x40 .lsr ∧ ShiftEncodings 0x20 .rol ∧
    ShiftEncodings 0x60 .ror := by
  unfold ShiftEncodings
  and_intros <;> exact fun _ _ => rfl

/-- A shift writes C, N and Z and no other flag. -/
theorem flag_shifted_of_not_mem {p v : Byte} {b : Bool} {g : Flag} (h : g ∉ [Flag.C, .N, .Z]) :
    flag (setNZ (setFlag p .C b) v) g = flag p g := by
  obtain ⟨hC, hN, hZ⟩ : g ≠ .C ∧ g ≠ .N ∧ g ≠ .Z := by simpa using h
  rw [flag_setNZ, if_neg hN, if_neg hZ, flag_setFlag, if_neg hC]

theorem flag_shifted_carry (p v : Byte) (b : Bool) : flag (setNZ (setFlag p .C b) v) .C = b := by simp

/-- `A, P <- f(A, P)`: of the flags it may write those `f` does. -/
theorem regOp_of_shift {i : Instr} {fs : List Flag} {s : State} {f : Byte → Byte → Byte × Byte}
    (next : exec i s = .next (shift f .acc s))
    (kept : ∀ g, g ∉ fs → flag (f s.cpu.a s.cpu.p).2 g = flag s.cpu.p g) :
    ∃ t, RegOp i [.A] fs 1 2 s t ∧ t.cpu.a = (f s.cpu.a s.cpu.p).1 ∧ t.cpu.p = (f s.cpu.a s.cpu.p).2 :=
  ⟨_, regOp_of_retire next rfl rfl rfl (Reg.set_regsKept .A _ s) kept, rfl, rfl⟩

/-- A shift on A and on memory, from what it computes on bytes. -/
theorem shiftGives_of_shiftsTo {i : Tgt → Instr} {f : Byte → Byte → Byte × Byte} {result carryOut : Byte → Nat → Nat}
    (next : ∀ o s, exec (i o) s = .next (shift f o s)) (h : ShiftsTo f result carryOut) :
    ShiftGives i result carryOut := by
  refine fun s => ⟨?_, fun m => ?_⟩
  · obtain ⟨b, status, value, ejected⟩ := h s.cpu.a s.cpu.p
    obtain ⟨t, op, ha, hp⟩ := regOp_of_shift (fs := [.C, .N, .Z]) (next .acc s) fun g hg => by
      rw [status, flag_shifted_of_not_mem hg]
    rw [← ha] at status value
    refine ⟨t, op, value, ?_, flagsNZ_of_setNZ (hp.trans status)⟩
    rw [hp, status, flag_shifted_carry]
    exact ejected
  · obtain ⟨b, status, value, ejected⟩ := h (peek s (effAddr m s).ea) s.cpu.p
    obtain ⟨t, op, hp⟩ := modifyOp_of_stepMem (fs := [.C, .N, .Z]) (next (.mem m) s) fun g hg => by
      rw [status, flag_shifted_of_not_mem hg]
    refine ⟨t, _, op, value, ?_, flagsNZ_of_setNZ (hp.trans status)⟩
    rw [hp, status, flag_shifted_carry]
    exact ejected

/-- Settles O23: each shift is an instance of `shiftGives_of_shiftsTo`. -/
theorem shiftsAndRotates : Obligations.ShiftsAndRotates :=
  ⟨shiftEncodings, shiftGives_of_shiftsTo (fun _ _ => rfl) asl_shiftsTo,
    shiftGives_of_shiftsTo (fun _ _ => rfl) lsr_shiftsTo, shiftGives_of_shiftsTo (fun _ _ => rfl) rol_shiftsTo,
    shiftGives_of_shiftsTo (fun _ _ => rfl) ror_shiftsTo⟩

/-! ## The increments and decrements -/

/-- `M <- g(M); SetNZ(M)` (43 R235, R236). -/
theorem modifyOp_of_setNZ {i : Instr} {m : Addr} {s : State} (g : Byte → Byte)
    (next : exec i s = .next (stepMem (fun v p => (g v, setNZ p (g v))) m s)) :
    ∃ t, ModifyOp i m (g (peek s (effAddr m s).ea)) [.N, .Z] s t ∧ FlagsNZ (g (peek s (effAddr m s).ea)) t := by
  obtain ⟨t, op, hp⟩ := modifyOp_of_stepMem next (flagsKept_of_setNZ (s := s) (t := s.setP _) rfl)
  exact ⟨t, op, flagsNZ_of_setNZ hp⟩

/-- Settles O24: the encodings by the decoder's matrix; INC and DEC are instances of `modifyOp_of_setNZ`. -/
theorem incAndDecMemory : Obligations.IncAndDecMemory := by
  refine ⟨?_, fun m s => ⟨?_, ?_⟩⟩
  · and_intros <;> exact fun _ _ => rfl
  · obtain ⟨t, op, nz⟩ := modifyOp_of_setNZ (i := .inc m) (s := s) (· + 1) rfl
    exact ⟨t, _, op, toNat_add_one _, nz⟩
  · obtain ⟨t, op, nz⟩ := modifyOp_of_setNZ (i := .dec m) (s := s) (· - 1) rfl
    exact ⟨t, _, op, toNat_sub_one _, nz⟩

/-- `reg <- v; SetNZ(reg)`, the value as a number (43 R237 to R240). -/
theorem regOp_of_set_toNat {i : Instr} {v : Byte} {n : Nat} {s : State} (reg : Reg)
    (next : exec i s = .next (((reg.set v s).setP (setNZ s.cpu.p v)).retire 1 2)) (value : v.toNat = n) :
    ∃ t, RegOp i [reg] [.N, .Z] 1 2 s t ∧ (reg.get t).toNat = n ∧ FlagsNZ (reg.get t) t := by
  obtain ⟨t, op, rfl, nz⟩ := regOp_of_set reg next
  exact ⟨t, op, value, nz⟩

/-- Settles O25: the encodings by the decoder's matrix, the four instructions as instances of `regOp_of_set_toNat`. -/
theorem incAndDecRegisters : Obligations.IncAndDecRegisters := by
  refine ⟨?_, fun s => ⟨regOp_of_set_toNat .X rfl (toNat_add_one _), regOp_of_set_toNat .Y rfl (toNat_add_one _),
    regOp_of_set_toNat .X rfl (toNat_sub_one _), regOp_of_set_toNat .Y rfl (toNat_sub_one _)⟩⟩
  and_intros <;> exact fun _ _ => rfl

end Sys2Proof.Claims

/-! 44_branch_jump R250 to R261, 45_flags_system R279, R280: a branch's target and cycles as numbers, the bytes that a
subroutine call and an exception entry leave on the stack, seen through the bus, and the returns that pull them. -/

namespace Sys2Proof.Machine

/-! ## Targets and cycles as numbers -/

theorem branchTarget_eq_ofInt (pc0 : Word) (b1 : Byte) :
    branchTarget pc0 b1 = BitVec.ofInt 16 (pc0.toNat + 2 + b1.toInt) := by
  have hpc : BitVec.ofInt 16 pc0.toNat = pc0 := by rw [BitVec.ofInt_natCast, BitVec.ofNat_toNat, BitVec.setWidth_eq]
  rw [BitVec.ofInt_add, BitVec.ofInt_add, hpc]
  rfl

/-- The count of a taken branch, from the pages as numbers (44 R250). -/
theorem crossCycle_pageCross (target origin : Word) :
    3 + crossCycle (pageCross target origin) = if target.toNat / 256 = origin.toNat / 256 then 3 else 4 := by
  by_cases h : target.toNat / 256 = origin.toNat / 256 <;> simp [pageCross_eq, crossCycle, h]

theorem loByte_toNat (w : Word) : (loByte w).toNat = w.toNat % 256 := by
  rw [loByte, BitVec.extractLsb'_toNat, Nat.shiftRight_zero]

theorem join_0xFF_and_0xFF00 : ∀ hi : Byte, join hi 0xFF &&& 0xFF00 = join hi 0xFF - 255 := by decide

/-- The high byte of a pointer comes from the pointer's own page (44 R259). -/
theorem pointerHigh_eq (w : Word) :
    (if loByte w = 0xFF then w &&& 0xFF00 else w + 1) = if w.toNat % 256 = 255 then w - 255 else w + 1 := by
  have hlo : loByte w = 0xFF ↔ w.toNat % 256 = 255 := by rw [← loByte_toNat, BitVec.toNat_eq]; rfl
  by_cases h : loByte w = 0xFF
  · rw [if_pos h, if_pos (hlo.mp h), ← join_hiByte_loByte w, h, join_0xFF_and_0xFF00]
  · rw [if_neg h, if_neg (hlo.not.mp h)]

end Sys2Proof.Machine

namespace Sys2Proof.Claims

open Sys2Proof.Machine

/-! ## The branches (44 R250) -/

theorem exec_branch {i : Instr} {taken : Bool} {b1 : Byte} {s : State} (next : exec i s = .next (branch taken b1 s)) :
    ∃ t, exec i s = .next t ∧ RegsKept [] s t ∧ t.cpu.p = s.cpu.p ∧ OutsideCpu t s ∧ MemoryKept s t ∧
      (taken = true → Ends s t (branchTarget s.cpu.pc b1) (branchCycles s.config.branchPageRef true s.cpu.pc b1)) ∧
      (taken = false → Ends s t (s.cpu.pc + 2) 2) := by
  have outside : OutsideCpu (branch taken b1 s) s := rfl
  refine ⟨_, next, fun r _ => ?_, rfl, outside, outside.peek_eq, ?_, ?_⟩
  · cases r <;> rfl
  · rintro rfl
    exact ⟨rfl, rfl, rfl⟩
  · rintro rfl
    exact ⟨rfl, rfl, rfl⟩

/-- Settles O26: each branch is an instance of `exec_branch`; its target and cycles by `branchTarget_eq_ofInt` and
`crossCycle_pageCross`. -/
theorem branchesFollowTheirFlag : Obligations.BranchesFollowTheirFlag := by
  refine ⟨?_, fun b1 s => ?_⟩
  · and_intros <;> exact fun _ _ => rfl
  · intro target origin cycles follows
    have htarget : branchTarget s.cpu.pc b1 = target := branchTarget_eq_ofInt _ _
    have hcycles : branchCycles s.config.branchPageRef true s.cpu.pc b1 = cycles :=
      (crossCycle_pageCross _ origin).trans (by rw [htarget])
    have branches {i : Instr} {taken : Bool} (next : exec i s = .next (branch taken b1 s)) : follows i taken := by
      have h := exec_branch next
      rwa [htarget, hcycles] at h
    exact ⟨branches rfl, branches rfl, branches rfl, branches rfl, branches rfl, branches rfl, branches rfl,
      branches rfl⟩

/-! ## JMP (44 R259) -/

/-- The indirect form: the two reads, low byte first, and of the CPU the latch, PC and the cycles. -/
theorem exec_jmp_indirect (s : State) (w : Word) :
    let hiAddr : Word := if w.toNat % 256 = 255 then w - 255 else w + 1
    let target := join (peek (memRead s w).2 hiAddr) (peek s w)
    exec (.jmp (.ind w)) s =
      .next { (memRead (memRead s w).2 hiAddr).2 with
        cpu := { s.cpu with absoluteAddr := target, pc := target, remainingCycles := 5 } } := by
  intro hiAddr target
  have hjump : jumpTarget (.ind w) s = (target, (memRead (memRead s w).2 hiAddr).2) := by
    rw [jumpTarget, pointerHigh_eq]
    rfl
  change execJmp (.ind w) s = _
  rw [execJmp, hjump]
  simp only [State.setAbsoluteAddr, State.setPc, State.setCycles, memRead_cpu]
  rfl

/-- Settles O27: the absolute form touches the CPU alone, the indirect one by `exec_jmp_indirect`. -/
theorem jumpTakesItsTarget : Obligations.JumpTakesItsTarget := by
  refine ⟨⟨fun _ _ => rfl, fun _ _ => rfl⟩, fun s w => ⟨?_, ?_⟩⟩
  · have outside : OutsideCpu (((s.setAbsoluteAddr w).setPc w).setCycles 3) s := rfl
    refine ⟨_, rfl, fun r _ => ?_, rfl, ⟨rfl, rfl, rfl⟩, outside, outside.peek_eq⟩
    cases r <;> rfl
  · refine ⟨_, exec_jmp_indirect s w, fun r _ => ?_, rfl, ⟨rfl, rfl, rfl⟩, rfl, fun hw hhi a => ?_⟩
    · cases r <;> rfl
    · rw [peek_withCpu, memRead_state s hw, memRead_state s hhi]

/-! ## What lies on the stack after several pushes (10_state R24) -/

/-- Two stack pointers that name one cell are equal. -/
theorem SameCell.sp_eq {x y : Byte} {a : Word} (hx : SameCell (stackAddr x) a) (hy : SameCell (stackAddr y) a) :
    x = y := by
  obtain ⟨-, -, ex⟩ := hx
  obtain ⟨-, -, ey⟩ := hy
  have h := congrArg BitVec.toNat (ex.trans ey.symm)
  rw [stackAddr_index, stackAddr_index] at h
  exact BitVec.eq_of_toNat_eq (Nat.add_left_cancel h)

theorem sameCell_self (x : Byte) : SameCell (stackAddr x) (stackAddr x) := ⟨stackAddr_low x, stackAddr_low x, rfl⟩

theorem not_sameCell {x y : Byte} (h : x ≠ y) : ¬ SameCell (stackAddr x) (stackAddr y) := fun e =>
  h (SameCell.sp_eq e (sameCell_self y))

/-- The tests for two distinct stack cells may be made in either order. -/
theorem ite_sameCell_comm {x y : Byte} (h : x ≠ y) (a : Word) (u v w : Byte) :
    (if SameCell (stackAddr x) a then u else if SameCell (stackAddr y) a then v else w) =
      if SameCell (stackAddr y) a then v else if SameCell (stackAddr x) a then u else w :=
  ite_ite_comm _ _ _ _ fun hx hy => h (SameCell.sp_eq hx hy)

theorem sub_one_ne (x : Byte) : x - 1 ≠ x := by bv_omega
theorem sub_two_ne (x : Byte) : x - 2 ≠ x := by bv_omega
theorem sub_two_ne_sub_one (x : Byte) : x - 2 ≠ x - 1 := by bv_omega

theorem sub_one_sub_one (x : Byte) : x - 1 - 1 = x - 2 := by bv_omega

/-- A word pushed high byte first. -/
theorem peek_push_push (s : State) (hi lo : Byte) (a : Word) :
    peek (push (push s hi) lo) a =
      if SameCell (stackAddr s.cpu.sp) a then hi
      else if SameCell (stackAddr (s.cpu.sp - 1)) a then lo
      else peek s a := by
  rw [peek_push, peek_push, push_cpu]
  exact ite_sameCell_comm (sub_one_ne _) a _ _ _

theorem push_push_sp (s : State) (hi lo : Byte) : (push (push s hi) lo).cpu.sp = s.cpu.sp - 2 := by
  rw [push_cpu, push_cpu]
  exact sub_one_sub_one _

/-- The frame that an entry leaves on the stack (60_exceptions R310, 45 R279). -/
theorem framePushed_takeException (s : State) (ret : Word) (brk : Bool) {vec : Word} (h : 0x8000 ≤ vec)
    (h' : 0x8000 ≤ vec + 1) : FramePushed ret (entryStatus brk s.cpu.p) s (takeException s ret brk vec) := by
  intro a
  simp only [takeException, loadPc_eq _ h h', State.setPc, State.setP, peek_withCpu]
  rw [peek_push, peek_withCpu, peek_push_push, push_p, push_p, push_push_sp, ite_sameCell_comm (sub_two_ne _),
    ite_sameCell_comm (sub_two_ne_sub_one _)]

theorem takeException_sp (s : State) (ret : Word) (brk : Bool) {vec : Word} (h : 0x8000 ≤ vec) (h' : 0x8000 ≤ vec + 1) :
    (takeException s ret brk vec).cpu.sp = s.cpu.sp - 3 := by
  have three : s.cpu.sp - 1 - 1 - 1 = s.cpu.sp - 3 := by bv_omega
  rw [takeException_eq s ret brk h h']
  exact three

/-- The frame's three bytes, as the return pulls them. -/
theorem FramePushed.cells {ret : Word} {q : Byte} {s t : State} (h : FramePushed ret q s t) :
    peek t (stackAddr s.cpu.sp) = hiByte ret ∧ peek t (stackAddr (s.cpu.sp - 1)) = loByte ret ∧
      peek t (stackAddr (s.cpu.sp - 2)) = q := by
  refine ⟨?_, ?_, ?_⟩
  · rw [h, if_pos (sameCell_self _)]
  · rw [h, if_neg (not_sameCell (sub_one_ne _).symm), if_pos (sameCell_self _)]
  · rw [h, if_neg (not_sameCell (sub_two_ne _).symm), if_neg (not_sameCell (sub_two_ne_sub_one _).symm),
      if_pos (sameCell_self _)]

/-! ## JSR, RTS and RTI (44 R260, R261, 45 R280) -/

/-- JSR: the two pushes, and of the CPU the latch, S, PC and the cycles (44 R260). -/
theorem exec_jsr (s : State) (target : Word) :
    exec (.jsr target) s =
      .next { push (push s (hiByte (s.cpu.pc + 2))) (loByte (s.cpu.pc + 2)) with
        cpu := { s.cpu with absoluteAddr := target, sp := s.cpu.sp - 2, pc := target, remainingCycles := 6 } } := by
  rw [← sub_one_sub_one]
  change execJsr target s = _
  simp only [execJsr, push_eq]
  rfl

/-- Settles O28: by `exec_jsr`; the two pushed bytes by `peek_push_push`. -/
theorem jsrPushesTheReturnAddress : Obligations.JsrPushesTheReturnAddress := by
  refine ⟨fun _ _ => rfl, fun s target => ⟨_, exec_jsr s target, ⟨rfl, rfl, rfl⟩, rfl, Reg.set_regsKept .S _ s, rfl, ?_,
    fun a => ?_⟩⟩
  · rw [push_eq, push_eq]
    rfl
  · rw [peek_withCpu, peek_push_push]

/-- RTS: the two bytes above S, as an address, plus 1 (44 R261). -/
theorem exec_rts (s : State) :
    exec .rts s = .next { s with cpu := { s.cpu with
      sp := s.cpu.sp + 2
      pc := join (peek s (stackAddr (s.cpu.sp + 2))) (peek s (stackAddr (s.cpu.sp + 1))) + 1
      remainingCycles := 6 } } := by
  have two : s.cpu.sp + 1 + 1 = s.cpu.sp + 2 := by bv_omega
  change execRts s = _
  simp only [execRts, pop_eq_peek, State.setSp, State.setPc, State.setCycles, peek_withCpu, two]

/-- RTI: the three bytes above S (45 R280). -/
theorem exec_rti (s : State) :
    exec .rti s = .next { s with cpu := { s.cpu with
      sp := s.cpu.sp + 3
      p := pulledStatus (peek s (stackAddr (s.cpu.sp + 1)))
      pc := join (peek s (stackAddr (s.cpu.sp + 3))) (peek s (stackAddr (s.cpu.sp + 2)))
      remainingCycles := 6 } } := by
  have two : s.cpu.sp + 1 + 1 = s.cpu.sp + 2 := by bv_omega
  have three : s.cpu.sp + 2 + 1 = s.cpu.sp + 3 := by bv_omega
  change execRti s = _
  simp only [execRti, returnFromException, pop_eq_peek, State.setSp, State.setP, State.setPc, State.setCycles,
    peek_withCpu, two, three]

/-- Settles O29: by `exec_rts` nothing outside the CPU is touched. -/
theorem rtsPullsTheReturnAddress : Obligations.RtsPullsTheReturnAddress :=
  ⟨fun _ _ => rfl, fun s =>
    ⟨_, exec_rts s, ⟨rfl, rfl, rfl⟩, rfl, Reg.set_regsKept .S _ s, rfl, rfl, peek_withCpu s _⟩⟩

/-! ## Entries and their returns -/

/-- RTS after JSR: the pulled word is the pushed one. -/
theorem exec_rts_of_jsr {s t u : State} {target : Word} (ht : exec (.jsr target) s = .next t)
    (hu : exec .rts t = .next u) : u.cpu.pc = s.cpu.pc + 3 ∧ u.cpu.sp = s.cpu.sp ∧ u.cpu.p = s.cpu.p := by
  obtain ⟨-, jsr⟩ := jsrPushesTheReturnAddress
  obtain ⟨-, rts⟩ := rtsPullsTheReturnAddress
  obtain ⟨t', ht', -, hsp, -, hp, -, stack⟩ := jsr s target
  obtain ⟨u', hu', ⟨hpc, -, -⟩, hsp', -, hp', -, -⟩ := rts t
  cases ht.symm.trans ht'
  cases hu.symm.trans hu'
  have sp2 : s.cpu.sp - 2 + 2 = s.cpu.sp := by bv_omega
  have sp1 : s.cpu.sp - 2 + 1 = s.cpu.sp - 1 := by bv_omega
  have hhi : peek t (stackAddr s.cpu.sp) = hiByte (s.cpu.pc + 2) := by rw [stack, if_pos (sameCell_self _)]
  have hlo : peek t (stackAddr (s.cpu.sp - 1)) = loByte (s.cpu.pc + 2) := by
    rw [stack, if_neg (not_sameCell (sub_one_ne _).symm), if_pos (sameCell_self _)]
  refine ⟨?_, ?_, hp'.trans hp⟩
  · rw [hpc, hsp, sp2, sp1, hhi, hlo, join_hiByte_loByte]
    bv_omega
  · rw [hsp', hsp, sp2]

/-- RTI after BRK: the pulled frame is the pushed one. -/
theorem exec_rti_of_brk {s t u : State} (ht : exec .brk s = .next t) (hu : exec .rti t = .next u) :
    u.cpu.pc = s.cpu.pc + 2 ∧ u.cpu.sp = s.cpu.sp ∧ u.cpu.p = pulledStatus (entryStatus true s.cpu.p) := by
  have ht' : exec .brk s = .next ((takeException s (s.cpu.pc + 2) true irqVector).setCycles 7) := rfl
  cases ht.symm.trans ht'
  cases hu.symm.trans (exec_rti _)
  have frame := framePushed_takeException s (s.cpu.pc + 2) true (vec := irqVector) (by decide) (by decide)
  obtain ⟨hhi, hlo, hq⟩ := frame.cells
  have hsp := takeException_sp s (s.cpu.pc + 2) true (vec := irqVector) (by decide) (by decide)
  have add1 : s.cpu.sp - 3 + 1 = s.cpu.sp - 2 := by bv_omega
  have add2 : s.cpu.sp - 3 + 2 = s.cpu.sp - 1 := by bv_omega
  have add3 : s.cpu.sp - 3 + 3 = s.cpu.sp := by bv_omega
  simp only [State.setCycles, peek_withCpu, hsp, add1, add2, add3, hhi, hlo, hq, join_hiByte_loByte, and_self]

/-- Settles O32: `exec_rts_of_jsr` and `exec_rti_of_brk`; the pulled status differs from P at rest in I alone. -/
theorem returnsUndoTheirEntries : Obligations.ReturnsUndoTheirEntries := by
  refine fun s target => ⟨fun t u ht hu => exec_rts_of_jsr ht hu, fun ⟨hU, hB⟩ t u ht hu => ?_⟩
  obtain ⟨hpc, hsp, hp⟩ := exec_rti_of_brk ht hu
  refine ⟨hpc, hsp, ?_, fun f hf => ?_⟩
  · rw [hp, flag_pulledStatus, flag_entryStatus]
    rfl
  · rw [hp, flag_pulledStatus, flag_entryStatus]
    cases f with
    | I => simp at hf
    | U => exact hU.symm
    | B => exact hB.symm
    | C | Z | D | V | N => rfl

end Sys2Proof.Claims

/-! 45_flags_system R271 to R281: the instructions that write one flag, the illegal opcodes, and BRK, whose registers
after the entry are those of every exception entry. -/

namespace Sys2Proof.Claims

open Sys2Proof.Machine

/-! ## The flag instructions (45 R271 to R278) -/

theorem flagsKept_of_setFlag {s t : State} {f : Flag} {b : Bool} (h : t.cpu.p = setFlag s.cpu.p f b) :
    FlagsKept [f] s t := by
  intro g hg
  rw [h, flag_setFlag, if_neg fun e => hg (List.mem_singleton.mpr e)]

/-- `P.f <- b` and nothing else. -/
theorem regOp_of_writeFlag {i : Instr} {f : Flag} {b : Bool} {s : State} (next : exec i s = .next (writeFlag f b s)) :
    ∃ t, RegOp i [] [f] 1 2 s t ∧ flag t.cpu.p f = b := by
  refine ⟨_, regOp_of_retire (u := s.setP (setFlag s.cpu.p f b)) next rfl rfl rfl (fun r _ => ?_)
    (flagsKept_of_setFlag rfl), (flag_setFlag s.cpu.p f f b).trans (if_pos rfl)⟩
  cases r <;> rfl

/-- Settles O33: the encodings by the decoder's matrix; the seven flag instructions are instances of
`regOp_of_writeFlag`, and NOP ends without any write. -/
theorem flagInstructionsWriteOneFlag : Obligations.FlagInstructionsWriteOneFlag := by
  refine ⟨?_, fun s => ⟨regOp_of_writeFlag rfl, regOp_of_writeFlag rfl, regOp_of_writeFlag rfl, regOp_of_writeFlag rfl,
    regOp_of_writeFlag rfl, regOp_of_writeFlag rfl, regOp_of_writeFlag rfl, ?_⟩⟩
  · and_intros <;> exact fun _ _ => rfl
  · exact ⟨_, regOp_of_retire (u := s) rfl rfl rfl rfl (fun _ _ => rfl) fun _ _ => rfl⟩

/-! ## The illegal opcodes (45 R281) -/

/-- The bus looks at neither the CPU's registers nor the recorded illegal opcodes. -/
theorem peek_eq_of_recorded {s t : State} (h : t = { s with cpu := t.cpu, illegalTrace := t.illegalTrace }) (a : Word) :
    peek t a = peek s a := by
  rw [h]
  exact peek_congr rfl (fun _ => rfl) (fun _ => rfl) (fun _ => rfl) (fun _ => rfl) rfl (fun _ => rfl)

theorem exec_ill_nop2 {s : State} (h : s.config.illegalPolicy = .nop2) (op b1 : Byte) :
    exec (.ill op b1) s = .next ({ s with illegalTrace := ⟨s.cpu.pc, op⟩ :: s.illegalTrace }.retire 2 2) := by
  change execIll op b1 s = _
  rw [execIll, h]

theorem exec_ill_refuse {s : State} (h : s.config.illegalPolicy = .refuse) (op b1 : Byte) :
    exec (.ill op b1) s = .refused (.illegalOpcode s.cpu.pc op) := by
  change execIll op b1 s = _
  rw [execIll, h]

/-- Settles O34: one equation of ILL per policy; the recorded event is nothing the bus reads. -/
theorem illegalOpcodesAreRecordedNops : Obligations.IllegalOpcodesAreRecordedNops := by
  refine fun op b1 s => ⟨fun h => ⟨_, exec_ill_nop2 h op b1, fun r _ => ?_, rfl, ⟨rfl, rfl, rfl⟩,
    peek_eq_of_recorded rfl, rfl, rfl⟩, fun h => exec_ill_refuse h op b1⟩
  cases r <;> rfl

/-! ## RTI (45 R280) -/

/-- Settles O31: by `exec_rti` nothing but S, P, PC and the cycles is written. -/
theorem rtiRestoresStatusAndPc : Obligations.RtiRestoresStatusAndPc :=
  ⟨fun _ _ => rfl, fun s =>
    ⟨_, exec_rti s, rfl, ⟨rfl, rfl, rfl⟩, rfl, Reg.set_regsKept .S _ s, rfl, peek_withCpu s _⟩⟩

/-! ## BRK (45 R279, 60_exceptions R310) -/

/-- The byte BRK pushes: P with B, U and I set. -/
theorem entryStatus_true_eq : ∀ p : Byte, entryStatus true p = (p &&& 0xCB) ||| 0x34 := by decide

/-- After an entry B is clear, I and U are set, and the other flags are P's (10_state R28, 60_exceptions R310). -/
theorem flag_takeException (s : State) (ret : Word) (brk : Bool) {vec : Word} (h : 0x8000 ≤ vec) (h' : 0x8000 ≤ vec + 1)
    (f : Flag) :
    flag (takeException s ret brk vec).cpu.p f =
      if f = .B then false else if f = .I ∨ f = .U then true else flag s.cpu.p f := by
  rw [takeException_eq s ret brk h h', flag_setFlag, flag_entryStatus]
  cases f <;> rfl

/-- The registers after an entry through any vector. -/
theorem entryRegs_takeException (s : State) (ret : Word) (brk : Bool) {vec : Word} (h : 0x8000 ≤ vec)
    (h' : 0x8000 ≤ vec + 1) : EntryRegs vec s (takeException s ret brk vec) := by
  have hflag := flag_takeException s ret brk h h'
  refine ⟨?_, takeException_sp s ret brk h h', ?_, hflag .I, hflag .U, hflag .B, fun f hf => ?_⟩
  · rw [takeException_eq s ret brk h h']
  · rw [takeException_eq s ret brk h h']
    exact Reg.set_regsKept .S _ s
  · simp only [List.mem_cons, List.not_mem_nil, or_false, not_or] at hf
    obtain ⟨hI, hU, hB⟩ := hf
    rw [hflag, if_neg hB, if_neg (not_or.mpr ⟨hI, hU⟩)]

/-- Settles O30: BRK is the entry through $FFFE with B set, and 7 cycles. -/
theorem brkEntersTheHandler : Obligations.BrkEntersTheHandler := by
  refine ⟨fun _ _ => rfl, fun s => ?_⟩
  have high : 0x8000 ≤ irqVector := by decide
  have high' : 0x8000 ≤ irqVector + 1 := by decide
  have state := takeException_eq s (s.cpu.pc + 2) true high high'
  refine ⟨(takeException s (s.cpu.pc + 2) true irqVector).setCycles 7, rfl,
    entryRegs_takeException s _ true high high', fun a => ?_, ?_, rfl, ?_⟩
  · rw [← entryStatus_true_eq]
    exact (peek_withCpu _ _ a).trans (framePushed_takeException s _ true high high' a)
  · rw [state]
    rfl
  · rw [state]
    rfl

end Sys2Proof.Claims

/-! 60_exceptions R306 to R310: the NMI and the IRQ. Each is the one exception entry, begun in a state that the bus
cannot tell from the boundary's and ended with its own acknowledgement. -/

namespace Sys2Proof.Machine

/-! ## What the bus does not see of a device -/

/-- A change of the PPU is seen only through the register that is read. -/
theorem peek_withPpu {s : State} {q : Ppu} {a : Word}
    (h : PpuRange a → (q.regRead s.cart s.config.statusLow5 (field a 0 3)).1 =
      (s.ppu.regRead s.cart s.config.statusLow5 (field a 0 3)).1) :
    peek { s with ppu := q } a = peek s a := by
  by_cases ha : PpuRange a
  · simp only [peek, memRead_ppu _ ha]
    exact h ha
  · exact peek_congr rfl (fun _ => rfl) (fun e => absurd e ha) (fun _ => rfl) (fun _ => rfl) rfl (fun _ => rfl)

/-- No PPU register answers from the NMI latch (62_ppu R393). -/
theorem peek_withNmiLatch (s : State) (b : Bool) (a : Word) :
    peek { s with ppu := { s.ppu with nmiLatch := b } } a = peek s a := by
  refine peek_withPpu fun _ => ?_
  unfold Ppu.regRead
  split <;> rfl

/-- Acknowledging the IRQ moves no bank (64_mappers R542). -/
theorem peek_irqClear (s : State) (a : Word) : peek { s with cart := s.cart.irqClear } a = peek s a := by
  refine peek_congr rfl (fun _ => rfl) (fun _ => rfl) (fun _ => rfl) (fun _ => rfl) ?_ (fun _ => ?_)
  · exact s.cart.irqClear_keeps.prg
  · cases hm : s.cart.mapper with
    | m0 | m1 _ | m2 _ => simp only [Cart.irqClear, hm]
    | m4 r => simp only [Cart.irqClear, Cart.cpuMapRead, hm]; rfl

/-- No entry counts cycles. -/
theorem takeException_totalCycleCount (s : State) (ret : Word) (brk : Bool) {vec : Word} (h : 0x8000 ≤ vec)
    (h' : 0x8000 ≤ vec + 1) : (takeException s ret brk vec).cpu.totalCycleCount = s.cpu.totalCycleCount := by
  rw [takeException_eq _ _ _ h h']

theorem Cart.irqClear_irqState (c : Cart) : c.irqClear.irqState = false := by
  cases hm : c.mapper <;> simp only [Cart.irqClear, Cart.irqState, hm]

/-- The bus looks at neither the CPU's registers nor the model's counter. -/
theorem peek_eq_of_counted {s t : State} (h : t = { s with cpu := t.cpu, freeCount := t.freeCount }) (a : Word) :
    peek t a = peek s a := by
  rw [h]
  exact peek_congr rfl (fun _ => rfl) (fun _ => rfl) (fun _ => rfl) (fun _ => rfl) rfl (fun _ => rfl)

end Sys2Proof.Machine

namespace Sys2Proof.Claims

open Sys2Proof.Machine

/-! ## The entry of an interrupt (60_exceptions R310) -/

/-- The byte an interrupt pushes: P with B clear, U and I set. -/
theorem entryStatus_false_eq : ∀ p : Byte, entryStatus false p = (p &&& 0xCB) ||| 0x24 := by decide

theorem entryRegs_interruptEntry (s : State) {vec : Word} (h : 0x8000 ≤ vec) (h' : 0x8000 ≤ vec + 1) :
    EntryRegs vec s (interruptEntry s vec) :=
  entryRegs_takeException s s.cpu.pc false h h'

theorem framePushed_interruptEntry (s : State) {vec : Word} (h : 0x8000 ≤ vec) (h' : 0x8000 ≤ vec + 1) :
    FramePushed s.cpu.pc ((s.cpu.p &&& 0xCB) ||| 0x24) s (interruptEntry s vec) := by
  rw [← entryStatus_false_eq]
  exact framePushed_takeException s s.cpu.pc false h h'

theorem interruptEntry_onlyRam (s : State) {vec : Word} (h : 0x8000 ≤ vec) (h' : 0x8000 ≤ vec + 1) :
    OnlyRam (interruptEntry s vec) s := by
  rw [interruptEntry, takeException_eq _ _ _ h h']
  rfl

/-- The registers after an entry are not among what the end of the event writes: the latch `temp` and the cycles. -/
theorem EntryRegs.of_cpu {vec : Word} {s e t : State} (h : EntryRegs vec s e)
    (cpu : t.cpu = { e.cpu with
      temp := t.cpu.temp, remainingCycles := t.cpu.remainingCycles, totalCycleCount := t.cpu.totalCycleCount }) :
    EntryRegs vec s t := by
  obtain ⟨hpc, hsp, hregs, hI, hU, hB, hflags⟩ := h
  have hp : t.cpu.p = e.cpu.p := by rw [cpu]
  have hget (r : Reg) : r.get t = r.get e := by cases r <;> rw [Reg.get, cpu] <;> rfl
  refine ⟨?_, ?_, fun r hr => (hget r).trans (hregs r hr), hp ▸ hI, hp ▸ hU, hp ▸ hB, fun f hf => ?_⟩
  · rw [cpu]; exact hpc
  · rw [cpu]; exact hsp
  · rw [hp]; exact hflags f hf

theorem FramePushed.of_memoryKept {ret : Word} {q : Byte} {s e t : State} (h : FramePushed ret q s e)
    (memory : MemoryKept e t) : FramePushed ret q s t := fun a => (memory a).trans (h a)

/-- The NMI entry is the entry of the boundary's own state, with the latch cleared and 8 cycles. -/
theorem takeNmi_freshTemp (s : State) :
    takeNmi (freshTemp s) =
      { interruptEntry s nmiVector with
        cpu := { (interruptEntry s nmiVector).cpu with temp := Config.freeTemp s.freeCount, remainingCycles := 8 }
        freeCount := s.freeCount + 1
        ppu := { (interruptEntry s nmiVector).ppu with nmiLatch := false } } := by
  have high : 0x8000 ≤ nmiVector := by decide
  have high' : 0x8000 ≤ nmiVector + 1 := by decide
  let u : State := { freshTemp s with ppu := { s.ppu with nmiLatch := false } }
  have lo : peek u nmiVector = peek s nmiVector := peek_high_congr high rfl rfl
  have hi : peek u (nmiVector + 1) = peek s (nmiVector + 1) := peek_high_congr high' rfl rfl
  change (interruptEntry u nmiVector).setCycles 8 = _
  simp only [interruptEntry, takeException_eq _ _ _ high high', lo, hi]
  rfl

/-- The IRQ entry is the entry of the boundary's own state, with the mapper acknowledged and 7 cycles. -/
theorem takeIrq_freshTemp (s : State) :
    takeIrq (freshTemp s) =
      { interruptEntry s irqVector with
        cpu := { (interruptEntry s irqVector).cpu with temp := Config.freeTemp s.freeCount, remainingCycles := 7 }
        freeCount := s.freeCount + 1
        cart := (interruptEntry s irqVector).cart.irqClear } := by
  have high : 0x8000 ≤ irqVector := by decide
  have high' : 0x8000 ≤ irqVector + 1 := by decide
  have lo : peek (freshTemp s) irqVector = peek s irqVector := peek_freshTemp s _
  have hi : peek (freshTemp s) (irqVector + 1) = peek s (irqVector + 1) := peek_freshTemp s _
  simp only [takeIrq, interruptEntry, takeException_eq _ _ _ high high', lo, hi]
  rfl

/-- The cycle that takes an NMI (60_exceptions R307, R310). -/
theorem cpuTick_nmi {s : State} (idle : s.cpu.remainingCycles = 0) (nmi : s.ppu.nmiLatch = true) :
    cpuTick s = .next (countCycle (takeNmi (freshTemp s))) := by
  rw [cpuTick, if_pos idle, boundary, if_pos nmi]
  rfl

/-- The cycle that takes an IRQ (60_exceptions R308 to R310). -/
theorem cpuTick_irq {s : State} (idle : s.cpu.remainingCycles = 0) (nmi : s.ppu.nmiLatch = false)
    (pending : irqPending s = true) : cpuTick s = .next (countCycle (takeIrq (freshTemp s))) := by
  rw [cpuTick, if_pos idle, boundary, if_neg (by simp [nmi]), if_pos pending]
  rfl

/-- Settles O35: an interrupt is the entry of the boundary's own state (`takeNmi_freshTemp`, `takeIrq_freshTemp`) and an
acknowledgement that the bus does not see. -/
theorem interruptsAreTakenAtBoundaries : Obligations.InterruptsAreTakenAtBoundaries := by
  intro s idle frame counts
  refine ⟨fun nmi => ⟨_, cpuTick_nmi idle nmi, ?_⟩, fun nmi line enabled => ⟨_, cpuTick_irq idle nmi ?_, ?_⟩⟩
  · have high : 0x8000 ≤ nmiVector := by decide
    have high' : 0x8000 ≤ nmiVector + 1 := by decide
    have only := interruptEntry_onlyRam s high high'
    rw [takeNmi_freshTemp]
    refine ⟨(entryRegs_interruptEntry s high high').of_cpu rfl,
      (framePushed_interruptEntry s high high').of_memoryKept fun a => ?_,
      ⟨rfl, congrArg (· + 1) (takeException_totalCycleCount s _ _ high high')⟩, ?_⟩
    · rw [← peek_withNmiLatch (interruptEntry s nmiVector) false a]
      exact peek_eq_of_counted rfl a
    · rw [only]; rfl
  · rw [irqPending, line, enabled]; rfl
  · have high : 0x8000 ≤ irqVector := by decide
    have high' : 0x8000 ≤ irqVector + 1 := by decide
    have only := interruptEntry_onlyRam s high high'
    rw [takeIrq_freshTemp]
    refine ⟨(entryRegs_interruptEntry s high high').of_cpu rfl,
      (framePushed_interruptEntry s high high').of_memoryKept fun a => ?_,
      ⟨rfl, congrArg (· + 1) (takeException_totalCycleCount s _ _ high high')⟩, Cart.irqClear_irqState _, ?_⟩
    · rw [← peek_irqClear (interruptEntry s irqVector) a]
      exact peek_eq_of_counted rfl a
    · rw [only]; rfl

end Sys2Proof.Claims

/-! 60_exceptions R306, 61_bus R341: what every event of a boundary costs, and the parts a master tick is made of. -/

namespace Sys2Proof.Machine

/-! ## The cycles of an instruction (30_encoding R140, 70_reset R576, R577) -/

/-- An event has 2 to 8 cycles to debit, and has counted none of them. -/
structure Occupies (s t : State) : Prop where
  two_le : 2 ≤ t.cpu.remainingCycles
  le_eight : t.cpu.remainingCycles ≤ 8
  counted : t.cpu.totalCycleCount = s.cpu.totalCycleCount

theorem crossCycle_le (b : Bool) : crossCycle b ≤ 1 := by cases b <;> decide

theorem readCycles_bounds (o : Src) : 2 ≤ readCycles o ∧ readCycles o ≤ 6 := by
  cases o with
  | imm _ => simp [readCycles]
  | mem m => cases m <;> simp [readCycles, readCyclesAt]

theorem storeCycles_bounds (m : Addr) : 2 ≤ storeCycles m ∧ storeCycles m ≤ 8 := by
  cases m <;> simp [storeCycles]

theorem modifyCyclesAt_bounds (m : Addr) : 2 ≤ modifyCyclesAt m ∧ modifyCyclesAt m ≤ 8 := by
  cases m <;> simp [modifyCyclesAt]

theorem modifyCycles_bounds (o : Tgt) : 2 ≤ modifyCycles o ∧ modifyCycles o ≤ 8 := by
  cases o with
  | acc => simp [modifyCycles]
  | mem m => exact modifyCyclesAt_bounds m

theorem jumpCycles_bounds (o : JmpTgt) : 2 ≤ jumpCycles o ∧ jumpCycles o ≤ 8 := by
  cases o <;> simp [jumpCycles]

theorem branchCycles_bounds (ref : BranchPageRef) (taken : Bool) (pc0 : Word) (b1 : Byte) :
    2 ≤ branchCycles ref taken pc0 b1 ∧ branchCycles ref taken pc0 b1 ≤ 8 := by
  cases taken with
  | false => simp [branchCycles]
  | true =>
    have h (b : Bool) : 2 ≤ 3 + crossCycle b ∧ 3 + crossCycle b ≤ 8 := by
      have := crossCycle_le b
      omega
    exact h _

/-! ## No instruction counts its own cycles -/

theorem readSrc_totalCycleCount (o : Src) (s : State) :
    (readSrc o s).state.cpu.totalCycleCount = s.cpu.totalCycleCount := by
  cases o with
  | imm b1 => rfl
  | mem m => rw [(readSrc_mem m s).2.2]

theorem modifyTgt_totalCycleCount (f : Byte → Byte → Byte × Byte) (o : Tgt) (s : State) :
    (modifyTgt f o s).cpu.totalCycleCount = s.cpu.totalCycleCount := by
  cases o with
  | acc => rfl
  | mem m =>
    change (modifyMem f m s).cpu.totalCycleCount = _
    rw [modifyMem_eq]

theorem jumpTarget_cpu (o : JmpTgt) (s : State) : (jumpTarget o s).2.cpu = s.cpu := by
  cases o with
  | abs target => rfl
  | ind ptr => simp only [jumpTarget, memRead_cpu]

theorem fetch_totalCycleCount (s : State) : (fetch s).state.cpu.totalCycleCount = s.cpu.totalCycleCount := by
  simp only [fetch, setOpcode_cpu]
  split <;> split <;> simp only [memRead_cpu]

/-! ## The events -/

theorem occupies_retire {s u : State} (n : Nat) {k : Nat} (hk : 2 ≤ k ∧ k ≤ 8)
    (hu : u.cpu.totalCycleCount = s.cpu.totalCycleCount) : Occupies s (u.retire n k) :=
  ⟨hk.1, hk.2, hu⟩

theorem occupies_setCycles {s u : State} {k : Nat} (hk : 2 ≤ k ∧ k ≤ 8)
    (hu : u.cpu.totalCycleCount = s.cpu.totalCycleCount) : Occupies s (u.setCycles k) :=
  ⟨hk.1, hk.2, hu⟩

/-- An instruction that reads one operand: its base count and the page-cross cycle. -/
theorem occupies_finishRead {s u : State} (o : Src)
    (hu : u.cpu.totalCycleCount = (readSrc o s).state.cpu.totalCycleCount) :
    Occupies s (finishRead o (readSrc o s) u) := by
  have hbase := readCycles_bounds o
  have hcross := crossCycle_le (readSrc o s).cross
  exact occupies_retire _ (by omega) (hu.trans (readSrc_totalCycleCount o s))

theorem occupies_store (m : Addr) (v : Byte) (s : State) : Occupies s (store m v s) := by
  refine occupies_retire _ (storeCycles_bounds m) ?_
  rw [storeTo_eq]

theorem occupies_shift (f : Byte → Byte → Byte × Byte) (o : Tgt) (s : State) : Occupies s (shift f o s) :=
  occupies_retire _ (modifyCycles_bounds o) (modifyTgt_totalCycleCount f o s)

theorem occupies_stepMem (f : Byte → Byte → Byte × Byte) (m : Addr) (s : State) : Occupies s (stepMem f m s) :=
  occupies_retire _ (modifyCyclesAt_bounds m) (modifyTgt_totalCycleCount f (.mem m) s)

theorem occupies_branch (taken : Bool) (b1 : Byte) (s : State) : Occupies s (branch taken b1 s) :=
  occupies_setCycles (branchCycles_bounds _ taken _ b1) rfl

/-- Every instruction takes 2 to 8 cycles and leaves the counting of them to the tick. -/
theorem exec_occupies {i : Instr} {s t : State} (he : exec i s = .next t) : Occupies s t := by
  cases i
  case lda o | ldx o | ldy o | cmp o | cpx o | cpy o | ora o | and o | eor o | adc o | sbc o =>
    cases he; exact occupies_finishRead o rfl
  case bit m => cases he; exact occupies_finishRead (.mem m) rfl
  case sta m | stx m | sty m => cases he; exact occupies_store m _ s
  case asl o | lsr o | rol o | ror o => cases he; exact occupies_shift _ o s
  case inc m | dec m => cases he; exact occupies_stepMem _ m s
  case bpl b1 | bmi b1 | bvc b1 | bvs b1 | bcc b1 | bcs b1 | bne b1 | beq b1 => cases he; exact occupies_branch _ b1 s
  case pha | php => cases he; exact occupies_retire _ (by decide) (by rw [push_eq]; rfl)
  case pla | plp => cases he; exact occupies_retire _ (by decide) (by rw [pop_eq]; rfl)
  case jmp o =>
    cases he
    exact occupies_setCycles (jumpCycles_bounds o) (congrArg Cpu.totalCycleCount (jumpTarget_cpu o s) :)
  case jsr target => cases he; exact occupies_setCycles (by decide) (by simp only [push_eq]; rfl)
  case rts => cases he; exact occupies_setCycles (by decide) (by simp only [pop_eq]; rfl)
  case brk =>
    cases he
    exact occupies_setCycles (by decide) (takeException_totalCycleCount s _ _ (by decide) (by decide))
  case rti => cases he; exact occupies_setCycles (by decide) (by rw [returnFromException_eq])
  case ill op b1 =>
    simp only [exec, execIll] at he
    split at he
    · cases he; exact occupies_retire _ (by decide) rfl
    · cases he
  all_goals cases he; exact occupies_retire _ (by decide) rfl

/-- Every event of a boundary takes 2 to 8 cycles (60_exceptions R306). -/
theorem boundary_occupies {s t : State} (h : boundary s = .next t) : Occupies s t := by
  unfold boundary at h
  split at h
  · cases h
    exact occupies_setCycles (by decide) (takeException_totalCycleCount _ _ _ (by decide) (by decide))
  · split at h
    · cases h
      exact occupies_setCycles (by decide) (takeException_totalCycleCount _ _ _ (by decide) (by decide))
    · obtain ⟨two_le, le_eight, counted⟩ := exec_occupies h
      exact ⟨two_le, le_eight, counted.trans (fetch_totalCycleCount _)⟩

/-! ## The parts of a master tick (61_bus R341) -/

theorem step_of_valid {s : State} (valid : s.cart.valid = true) :
    step s = andThen (cpuSlot (devicesTick s)) endTick := by rw [step, if_pos valid, masterTick]

theorem cpuSlot_of_cpu {s : State} (clock : s.systemClock % 3 = 0) (dma : s.dma.transfer = false) :
    cpuSlot s = cpuTick s := by simp [cpuSlot, clock, dma]

theorem cpuSlot_of_dma {s : State} (clock : s.systemClock % 3 = 0) (dma : s.dma.transfer = true) :
    cpuSlot s = .next (dmaStep s) := by simp [cpuSlot, clock, dma]

theorem cpuSlot_of_idle {s : State} (clock : s.systemClock % 3 ≠ 0) : cpuSlot s = .next s := by
  rw [cpuSlot, if_neg clock]

theorem cpuTick_of_debit {s : State} (busy : s.cpu.remainingCycles ≠ 0) : cpuTick s = .next (countCycle s) := by
  rw [cpuTick, if_neg busy]

end Sys2Proof.Machine

namespace Sys2Proof.Claims

open Sys2Proof.Machine

/-- After the first cycle of an event the CPU cycles left to it only count. -/
theorem cpuTicks_countCycle (k : Nat) (t : State) (h : k + 1 ≤ t.cpu.remainingCycles) :
    cpuTicks k (countCycle t) = .next { t with cpu := { t.cpu with
      remainingCycles := t.cpu.remainingCycles - (k + 1), totalCycleCount := t.cpu.totalCycleCount + (k + 1) } } := by
  induction k generalizing t with
  | zero => rfl
  | succ k ih =>
    have counted : (countCycle t).cpu.remainingCycles = t.cpu.remainingCycles - 1 := rfl
    have busy : (countCycle t).cpu.remainingCycles ≠ 0 := by omega
    have left : t.cpu.remainingCycles - 1 - (k + 1) = t.cpu.remainingCycles - (k + 1 + 1) := by omega
    have count : t.cpu.totalCycleCount + 1 + (k + 1) = t.cpu.totalCycleCount + (k + 1 + 1) := by omega
    rw [cpuTicks, cpuTick_of_debit busy]
    dsimp only
    rw [ih (countCycle t) (by omega), ← left, ← count]
    rfl

/-- Settles O36: the event by `boundary_occupies`, the cycles after its first by `cpuTicks_countCycle`, the tick by the
case of its slot. -/
theorem eventsOccupyTheirCycles : Obligations.EventsOccupyTheirCycles := by
  refine ⟨fun s t idle event => ?_, fun s valid clock => ⟨rfl, fun dma => ?_, fun dma => ?_⟩, fun s t h clock => ?_⟩
  · obtain ⟨two_le, le_eight, counted⟩ := boundary_occupies event
    refine ⟨two_le, le_eight, fun k hk hle => ?_⟩
    obtain ⟨k, rfl⟩ := Nat.exists_eq_add_of_le' hk
    have first : cpuTick s = .next (countCycle t) := by rw [cpuTick, if_pos idle, event, andThen]
    rw [cpuTicks, first]
    dsimp only
    rw [cpuTicks_countCycle k t hle, counted]
  · rw [step_of_valid valid, cpuSlot_of_cpu (s := devicesTick s) clock dma]
    rfl
  · rw [step_of_valid valid, cpuSlot_of_dma (s := devicesTick s) clock dma]
    rfl
  · obtain ⟨valid, -⟩ := step_cases h
    rw [step_of_valid valid, cpuSlot_of_idle (s := devicesTick s) clock] at h
    cases h
    rfl

end Sys2Proof.Claims

/-! 60_exceptions R305, R315, 62_ppu R424, R426, 64_mappers R541: the mapper hook and the two interrupt lines. The
devices' part of a tick may raise a line, at its dot; the CPU's or the DMA engine's part may only lower one. -/

namespace Sys2Proof.Machine

/-! ## The lines across a dot -/

theorem Ppu.rendering_iff (p : Ppu) : p.rendering = true ↔ p.mask.getLsbD 3 = true ∨ p.mask.getLsbD 4 = true :=
  Bool.or_eq_true_iff

/-- The hook looks at the counters and PPUMASK, which the dot before it leaves as they were at dot 260 (62_ppu R426). -/
theorem ppuTick_cart (p : Ppu) (c : Cart) :
    (ppuTick p c).2 = if p.cycle = 260 ∧ p.scanline ≤ 239 ∧ p.rendering = true then c.scanlineTick else c := by
  have kept := Ppu.dot_keeps p c
  have hcycle : (p.dot c).cycle = 260 ↔ p.cycle = 260 := by
    rw [Ppu.dot_cycle, Ppu.skipDot_cycle]
    split <;> omega
  simp only [ppuTick, Ppu.mapperHook, hcycle, kept.scanline, kept.rendering]

/-- A dot raises the NMI latch at the start of vblank only (62_ppu R424). -/
theorem ppuTick_nmiLatch (p : Ppu) (c : Cart) :
    (ppuTick p c).1.nmiLatch =
      if p.scanline = 241 ∧ p.cycle = 1 then p.nmiLatch || p.vblankNmi else p.nmiLatch := by
  rw [← Ppu.dot_nmiLatch p c, ppuTick, Ppu.advance_frame]

/-- A scanline tick raises the line on M4 only, with its counter enabled (64_mappers R541). -/
theorem Cart.irqState_of_scanlineTick {c : Cart} (h : c.scanlineTick.irqState = true) :
    c.irqState = true ∨ ∃ r, c.mapper = .m4 r ∧ r.irqEnable = true := by
  cases hm : c.mapper with
  | m0 | m1 _ | m2 _ => simp [Cart.scanlineTick, Cart.irqState, hm] at h
  | m4 r =>
    simp only [Cart.scanlineTick, Mmc3.scanlineTick, Cart.irqState, hm, Bool.or_eq_true, Bool.and_eq_true] at h ⊢
    exact h.imp_right fun e => ⟨r, rfl, e.2⟩

/-! ## The IRQ line across a slot -/

/-- A register write of M4 may lower the line, never raise it (64_mappers R539). -/
theorem Mmc3.writeReg_irqActive {r : Mmc3} {a : Word} {d : Byte} (h : (r.writeReg a d).irqActive = true) :
    r.irqActive = true := by
  revert h
  unfold Mmc3.writeReg
  split
  case h_7 => exact fun h => Bool.noConfusion h
  all_goals exact id

theorem Cart.cpuMapWrite_irqState {c c' : Cart} {ram : Bool} {a : Word} {v : Byte}
    (hw : c.cpuMapWrite ram a v = some c') (h : c'.irqState = true) : c.irqState = true := by
  cases hm : c.mapper with
  | m0 => simp only [Cart.cpuMapWrite, hm, reduceCtorEq] at hw
  | m1 _ | m2 _ =>
    have kind := (Cart.cpuMapWrite_keeps hw).kind
    rw [hm] at kind
    cases hm' : c'.mapper <;> simp [Mapper.SameKind, Cart.irqState, hm'] at kind h
  | m4 r =>
    simp only [Cart.irqState, hm]
    simp only [Cart.cpuMapWrite, hm] at hw
    split at hw
    · cases hw; exact Mmc3.writeReg_irqActive h
    · split at hw
      · cases hw; exact h
      · cases hw

/-- Below the cartridge a write reaches no more of it than CHR RAM (62_ppu R382). -/
theorem busWrite_irqState (s : State) (a : Word) (v : Byte) : (busWrite s a v).cart.irqState = s.cart.irqState := by
  unfold busWrite
  split
  · rfl
  · split
    · simp only [ppuRegWrite]
      rw [Ppu.regWrite_cart_frame]
      rfl
    · unfold controllerLatch
      repeat' split
      all_goals rfl

theorem memWrite_irqState (s : State) (a : Word) (v : Byte) (h : (memWrite s a v).cart.irqState = true) :
    s.cart.irqState = true := by
  unfold memWrite at h
  split at h
  · exact Cart.cpuMapWrite_irqState ‹_› h
  · rwa [busWrite_irqState] at h

/-- No slot raises the IRQ line: it changes through a mapper register, or is acknowledged. -/
theorem irqState_slot : SlotClosed fun s t => t.cart.irqState = true → s.cart.irqState = true where
  refl _ := id
  trans h k := h ∘ k
  read s a := by rw [memRead_frame]; exact id
  write := memWrite_irqState
  cpu _ _ := id
  ill _ _ := id
  dma s := by rw [dmaStep_frame]; exact id
  fresh _ := id
  ack s := fun h => absurd h (by simp [Cart.irqClear_irqState])
  nmi _ := id

end Sys2Proof.Machine

namespace Sys2Proof.Claims

open Sys2Proof.Machine

/-- Settles O37: the hook and the latch by `ppuTick_cart` and `ppuTick_nmiLatch`; after the dot the slot raises neither
line (`slot_ppu_keeps`, `irqState_slot`). -/
theorem interruptLinesRiseOnlyAtTheirDots : Obligations.InterruptLinesRiseOnlyAtTheirDots := by
  refine ⟨fun p c => ?_, fun s t h => ?_⟩
  · simp only [ppuTick_cart, Ppu.rendering_iff]
    exact ⟨fun hooks => if_pos hooks, fun quiet => if_neg quiet⟩
  obtain ⟨-, u, slot, rfl⟩ := step_cases h
  refine ⟨fun latch => ?_, fun line => ?_⟩
  · have raised : (ppuTick s.ppu s.cart).1.nmiLatch = true := (slot_ppu_keeps slot).nmiLatch latch
    rw [ppuTick_nmiLatch] at raised
    split at raised
    · rename_i dot
      exact (Bool.or_eq_true_iff.mp raised).imp_right fun enabled => ⟨dot.1, dot.2, enabled⟩
    · exact .inl raised
  · have raised : (ppuTick s.ppu s.cart).2.irqState = true := irqState_slot.slot slot line
    rw [ppuTick_cart] at raised
    split at raised
    · rename_i dot
      obtain ⟨cycle, scanline, rendering⟩ := dot
      exact (Cart.irqState_of_scanlineTick raised).imp_right fun ⟨r, mapper, enabled⟩ =>
        ⟨r, mapper, enabled, cycle, scanline, (Ppu.rendering_iff _).mp rendering⟩
    · exact .inl raised

end Sys2Proof.Claims

/-! 70_reset R562, R582: from a reset to the first instruction. Each of the 24 ticks leaves the machine as the reset did
but for the counters and the sound, and the 25th is the boundary step of `stepRunsTheDecodedInstruction`. -/

namespace Sys2Proof.Machine

/-! ## The PPU and the cartridge -/

/-- The PPU stands before dot `n` of scanline 0, with PPUMASK, the NMI latch and OAM as a reset leaves them. -/
structure Ppu.IdleAt (n : Nat) (p : Ppu) : Prop where
  scanline : p.scanline = 0
  cycle : p.cycle = n
  mask : p.mask = Ppu.reset.mask
  nmiLatch : p.nmiLatch = false
  oam : p.oam = Ppu.reset.oam
  oamAddr : p.oamAddr = Ppu.reset.oamAddr

theorem Ppu.reset_idleAt : Ppu.reset.IdleAt 0 := ⟨rfl, rfl, rfl, rfl, rfl, rfl⟩

theorem Ppu.IdleAt.rendering {n : Nat} {p : Ppu} (h : p.IdleAt n) : p.rendering = false := by
  rw [Ppu.rendering, Ppu.showBackground, Ppu.showSprites, h.mask]
  rfl

theorem Ppu.IdleAt.tick {n : Nat} {p : Ppu} (h : p.IdleAt n) (c : Cart) (hn : n < 340) :
    (ppuTick p c).1.IdleAt (n + 1) := by
  have kept := Ppu.dot_keeps p c
  have cycle : (p.dot c).cycle = n := by
    rw [Ppu.dot_cycle, Ppu.skipDot_cycle, if_neg (by simp [h.rendering]), h.cycle]
  have advance : (p.dot c).advance = { p.dot c with cycle := n + 1 } := by
    rw [Ppu.advance, cycle, if_neg (by omega)]
  have latch : (ppuTick p c).1.nmiLatch = false := by
    rw [ppuTick_nmiLatch, if_neg (by simp [h.scanline]), h.nmiLatch]
  rw [ppuTick, advance] at latch ⊢
  exact ⟨kept.scanline.trans h.scanline, rfl, kept.mask.trans h.mask, latch, kept.oam.trans h.oam,
    kept.oamAddr.trans h.oamAddr⟩

/-- With rendering off a dot has no mapper hook (62_ppu R426). -/
theorem Ppu.IdleAt.tick_cart {n : Nat} {p : Ppu} (h : p.IdleAt n) (c : Cart) : (ppuTick p c).2 = c := by
  rw [ppuTick_cart, if_neg (by simp [h.rendering])]

theorem Cart.reset_valid (c : Cart) : c.reset.valid = c.valid := by
  cases hm : c.mapper <;> simp only [Cart.reset, Cart.valid, hm]

/-! ## What the bus answers without a side effect -/

/-- The PPU registers that are read without a side effect answer from OAM alone (62_ppu R393, R398). -/
theorem Ppu.regRead_quiet {p q : Ppu} (c : Cart) (low5 : BitVec 5) {r : BitVec 3} (h2 : r ≠ 2) (h7 : r ≠ 7)
    (oam : q.oam = p.oam) (oamAddr : q.oamAddr = p.oamAddr) : (q.regRead c low5 r).1 = (p.regRead c low5 r).1 := by
  unfold Ppu.regRead
  split
  · rename_i e
    exact absurd (BitVec.eq_of_toNat_eq e) h2
  · rw [oam, oamAddr]
  · rename_i e
    exact absurd (BitVec.eq_of_toNat_eq e) h7
  · rfl

/-- `t` is `s` but for the CPU's registers, the PPU, the sound and the clock. -/
def OnlyTicked (s t : State) : Prop :=
  t = { s with
    cpu := t.cpu, systemClock := t.systemClock, ppu := t.ppu, apu := t.apu, audioTime := t.audioTime
    sampleReady := t.sampleReady }

theorem OnlyTicked.peek_eq {s t : State} {a : Word} (h : OnlyTicked s t) (quiet : ¬ SideEffect a)
    (oam : t.ppu.oam = s.ppu.oam) (oamAddr : t.ppu.oamAddr = s.ppu.oamAddr) : peek t a = peek s a := by
  have hppu : peek { s with ppu := t.ppu } a = peek s a :=
    peek_withPpu fun ha => Ppu.regRead_quiet _ _ (fun e => quiet (.inl ⟨ha, .inl e⟩))
      (fun e => quiet (.inl ⟨ha, .inr e⟩)) oam oamAddr
  rw [← hppu, h]
  exact peek_congr rfl (fun _ => rfl) (fun _ => rfl) (fun _ => rfl) (fun _ => rfl) rfl (fun _ => rfl)

/-! ## Counting down -/

/-- `t` is `r` after `n` master ticks, of which every third debited one of its eight cycles: only the counters, the
PPU's dot and the sound moved. -/
structure CountedDown (r : State) (n : Nat) (t : State) : Prop where
  frame : OnlyTicked r t
  clock : t.systemClock = n
  cpu : t.cpu = { r.cpu with remainingCycles := 8 - (n + 2) / 3, totalCycleCount := (n + 2) / 3 }
  ppu : t.ppu.IdleAt n

theorem busReset_countedDown (s : State) : CountedDown (busReset s) 0 (busReset s) := by
  rw [busReset_eq]
  exact ⟨rfl, rfl, rfl, Ppu.reset_idleAt⟩

/-- The devices' part of the next tick moves the PPU and the sound only. -/
theorem CountedDown.devicesTick_frame {r t : State} {n : Nat} (h : CountedDown r n t) :
    OnlyTicked r (devicesTick t) := by
  have frame := h.frame
  rw [OnlyTicked] at frame
  rw [OnlyTicked, devicesTick, h.ppu.tick_cart, frame]

/-- One more tick: a debited cycle if it is a CPU cycle, and the devices' dot. -/
theorem CountedDown.step {r t : State} {n : Nat} (h : CountedDown r n t) (valid : r.cart.valid = true)
    (dma : r.dma.transfer = false) (hn : n < 24) : ∃ u, step t = .next u ∧ CountedDown r (n + 1) u := by
  have hcart : t.cart = r.cart := by rw [h.frame]
  have hdma : t.dma.transfer = false := by rw [h.frame]; exact dma
  have hframe := h.devicesTick_frame
  have hppu := h.ppu.tick t.cart (by omega)
  rw [step_of_valid (hcart ▸ valid)]
  by_cases clock : n % 3 = 0
  · have busy : (devicesTick t).cpu.remainingCycles ≠ 0 := by
      rw [devicesTick_cpu, h.cpu]
      dsimp only
      omega
    rw [cpuSlot_of_cpu (s := devicesTick t) (h.clock ▸ clock) hdma, cpuTick_of_debit busy]
    have count : (n + 1 + 2) / 3 = (n + 2) / 3 + 1 := by omega
    refine ⟨_, rfl, ?_, congrArg (· + 1) h.clock, ?_, hppu⟩
    · rw [hframe]
      rfl
    · rw [endTick_cpu, countCycle_cpu, devicesTick_cpu, h.cpu, count]
      rfl
  · rw [cpuSlot_of_idle (s := devicesTick t) (h.clock ▸ clock)]
    have count : (n + 1 + 2) / 3 = (n + 2) / 3 := by omega
    refine ⟨_, rfl, ?_, congrArg (· + 1) h.clock, ?_, hppu⟩
    · rw [hframe]
      rfl
    · rw [endTick_cpu, devicesTick_cpu, h.cpu, count]

end Sys2Proof.Machine

namespace Sys2Proof.Claims

open Sys2Proof.Machine

/-- After a run that completes, one more step of the run is one step. -/
theorem run_succ_of_run {n : Nat} {s t : State} (h : Host.Core.run Sys2Proof.core n s = .next t) :
    Host.Core.run Sys2Proof.core (n + 1) s = step t := by
  have hs (u : State) : Sys2Proof.core.step u = step u := rfl
  induction n generalizing s with
  | zero =>
    cases h
    simp only [Host.Core.run, hs]
    cases step t <;> rfl
  | succ n ih =>
    obtain ⟨m, hm, h⟩ := run_succ_eq_next.mp h
    simp only [Host.Core.run, hs, hm] at ih ⊢
    exact ih h

end Sys2Proof.Claims

namespace Sys2Proof

/-- Bytes beyond an instruction's length do not matter to what is decoded (30_encoding R147). -/
theorem decode_congr {op b1 b2 c1 c2 : Byte} {i : Instr} {rest : List Byte} (h : decode [op, b1, b2] = .ok i rest)
    (h1 : 2 ≤ i.size → c1 = b1) (h2 : i.size = 3 → c2 = b2) : ∃ rest', decode [op, c1, c2] = .ok i rest' := by
  rw [decode_three] at h
  obtain ⟨rfl, -⟩ := Decoded.ok.inj h
  rw [size_decodeBytes] at h1 h2
  rw [decode_three, ite_congr rfl h1 fun _ => rfl, ite_congr rfl h2 fun _ => rfl]
  exact ⟨_, rfl⟩

end Sys2Proof

namespace Sys2Proof.Claims

open Sys2Proof.Machine

/-- `n` ticks after a reset, up to the 24th. -/
theorem run_busReset {s : State} (valid : s.cart.valid = true) {n : Nat} (hn : n ≤ 24) :
    ∃ t : State, Host.Core.run Sys2Proof.core n (busReset s) = .next t ∧ CountedDown (busReset s) n t := by
  have hvalid : (busReset s).cart.valid = true := by rw [busReset_eq]; exact (Cart.reset_valid _).trans valid
  have hdma : (busReset s).dma.transfer = false := by rw [busReset_eq]; rfl
  induction n with
  | zero => exact ⟨_, rfl, busReset_countedDown s⟩
  | succ n ih =>
    obtain ⟨t, hrun, ht⟩ := ih (by omega)
    obtain ⟨u, hstep, hu⟩ := ht.step hvalid hdma (by omega)
    exact ⟨u, (run_succ_of_run hrun).trans hstep, hu⟩

/-- The 25th tick is the boundary step of the instruction at the reset vector's address, whose bytes read in the dot's
state as they do right after the reset. -/
theorem step_of_countedDown {s t : State} (valid : s.cart.valid = true) (h : CountedDown (busReset s) 24 t) {i : Instr}
    {rest : List Byte} (quiet : ∀ k < i.size, ¬ SideEffect ((busReset s).cpu.pc + BitVec.ofNat 16 k))
    (hdecode : decode [peek (busReset s) (busReset s).cpu.pc, peek (busReset s) ((busReset s).cpu.pc + 1),
      peek (busReset s) ((busReset s).cpu.pc + 2)] = .ok i rest) :
    step t = andThen (exec i ((freshTemp (devicesTick t)).setOpcode (peek (busReset s) (busReset s).cpu.pc)))
      (fun u => endTick (countCycle u)) := by
  have hcart : t.cart = s.cart.reset := by rw [h.frame, busReset_eq]
  have hdma : t.dma.transfer = false := by rw [h.frame, busReset_eq]; rfl
  have hcycles : t.cpu.remainingCycles = 0 := by rw [h.cpu]
  have hpc : t.cpu.pc = (busReset s).cpu.pc := by rw [h.cpu]
  have dot : (devicesTick t).ppu.IdleAt 25 := h.ppu.tick t.cart (by decide)
  have line : (devicesTick t).cart.irqState = false := by
    rw [devicesTick_cart, h.ppu.tick_cart, hcart, Cart.reset_irqState]
  have hpeek (k : Nat) (hk : k < i.size) : peek (devicesTick t) ((busReset s).cpu.pc + BitVec.ofNat 16 k) =
      peek (busReset s) ((busReset s).cpu.pc + BitVec.ofNat 16 k) :=
    h.devicesTick_frame.peek_eq (quiet k hk) dot.oam dot.oamAddr
  have hop : peek (devicesTick t) (busReset s).cpu.pc = peek (busReset s) (busReset s).cpu.pc := by
    simpa using hpeek 0 (Format.size_pos _)
  obtain ⟨rest', hdecode'⟩ := decode_congr hdecode (fun h1 => hpeek 1 h1) (fun h2 => hpeek 2 (by omega))
  rw [← hop, ← hpc] at hdecode' ⊢
  exact stepRunsTheDecodedInstruction t i rest' (hcart ▸ (Cart.reset_valid _).trans valid) (by rw [h.clock]) hdma
    hcycles dot.nmiLatch (fun irq => Bool.noConfusion (line.symm.trans irq.1)) (hpc ▸ quiet) hdecode'

/-- Settles O41: the 24 ticks by `run_busReset`, the 25th by `step_of_countedDown`. -/
theorem firstInstructionFollows24Ticks : Obligations.FirstInstructionFollows24Ticks := by
  intro s valid r
  obtain ⟨t, hrun, h⟩ := run_busReset valid (n := 24) (Nat.le_refl 24)
  have hcart : t.cart = r.cart := by rw [h.frame]
  have hdma : t.dma = r.dma := by rw [h.frame]
  have line : r.cart.irqState = false := by
    change (busReset s).cart.irqState = false
    rw [busReset_eq]
    exact Cart.reset_irqState _
  refine ⟨t, hrun, h.cpu, h.clock, by rw [h.frame], hcart, hdma, ?_, h.ppu.nmiLatch, hcart ▸ line, h.ppu.scanline,
    h.ppu.cycle, fun i rest quiet hdecode => ?_⟩
  · rw [hdma]
    rfl
  · rw [run_succ_of_run hrun]
    exact step_of_countedDown valid h quiet hdecode

end Sys2Proof.Claims

/-! 00_scope R11: what bit fields and masks are as numbers. -/

namespace Sys2Proof

theorem toNat_field {w : Nat} (v : BitVec w) (lo len : Nat) : (field v lo len).toNat = v.toNat / 2 ^ lo % 2 ^ len := by
  simp [field, Nat.shiftRight_eq_div_pow]

theorem getLsbD_field {w : Nat} (v : BitVec w) (lo len i : Nat) :
    (field v lo len).getLsbD i = (decide (i < len) && v.getLsbD (lo + i)) := by
  simp [field, BitVec.getLsbD_extractLsb']

/-- A field is replaced bit by bit. -/
theorem getLsbD_setField {w len : Nat} (v : BitVec w) (lo : Nat) (x : BitVec len) (i : Nat) :
    (setField v lo x).getLsbD i = if lo ≤ i ∧ i < lo + len ∧ i < w then x.getLsbD (i - lo) else v.getLsbD i := by
  by_cases hw : i < w
  · simp only [setField, BitVec.getLsbD_or, BitVec.getLsbD_and, BitVec.getLsbD_not, BitVec.getLsbD_shiftLeft,
      BitVec.getLsbD_setWidth, BitVec.getLsbD_allOnes, hw]
    by_cases hlo : lo ≤ i
    · by_cases hlen : i < lo + len
      · simp [hlo, hlen, show ¬ i < lo by omega, show i - lo < w by omega, show i - lo < len by omega]
      · simp [hlo, hlen, show ¬ i < lo by omega, show ¬ i - lo < len by omega,
          BitVec.getLsbD_of_ge x (i - lo) (by omega)]
    · simp [hlo, show i < lo by omega]
  · rw [if_neg (by omega), BitVec.getLsbD_of_ge _ i (by omega), BitVec.getLsbD_of_ge _ i (by omega)]

/-- A mask of `k` ones is a remainder. -/
theorem toNat_and_mask {w : Nat} (v m : BitVec w) (k : Nat) (hm : m.toNat = 2 ^ k - 1) :
    (v &&& m).toNat = v.toNat % 2 ^ k := by
  rw [BitVec.toNat_and, hm, Nat.and_two_pow_sub_one_eq_mod]

/-- An or of a multiple of `2 ^ k` and a number below it is their sum. -/
theorem toNat_or_of_lt {w : Nat} {x y : BitVec w} (k : Nat) (hx : x.toNat % 2 ^ k = 0) (hy : y.toNat < 2 ^ k) :
    (x ||| y).toNat = x.toNat + y.toNat := by
  obtain ⟨n, hn⟩ := Nat.dvd_of_mod_eq_zero hx
  rw [BitVec.toNat_or, hn, ← Nat.two_pow_add_eq_or_of_lt hy]

end Sys2Proof

/-! 61_bus R356, R357: the controller ports. -/

namespace Sys2Proof.Claims

open Sys2Proof.Machine

/-- Each read of a port shifts its byte by one. -/
theorem readTimes_port0 (k : Nat) (s : State) : readTimes 0x4016 k s = { s with ctrlShift0 := s.ctrlShift0 <<< k } := by
  induction k generalizing s with
  | zero => simp [readTimes]
  | succ k ih =>
    rw [readTimes, memRead_port0, ih]
    dsimp only
    rw [← BitVec.shiftLeft_add, Nat.add_comm]

theorem readTimes_port1 (k : Nat) (s : State) : readTimes 0x4017 k s = { s with ctrlShift1 := s.ctrlShift1 <<< k } := by
  induction k generalizing s with
  | zero => simp [readTimes]
  | succ k ih =>
    rw [readTimes, memRead_port1, ih]
    dsimp only
    rw [← BitVec.shiftLeft_add, Nat.add_comm]

/-- The bit that a byte shifted `k` times answers. -/
theorem toNat_shiftedOut (b : Byte) (k : Nat) :
    ((b <<< k) >>> 7).toNat = if k < 8 then b.toNat / 2 ^ (7 - k) % 2 else 0 := by
  split
  · have hb := b.isLt
    simp only [BitVec.toNat_ushiftRight, BitVec.toNat_shiftLeft, Nat.shiftLeft_eq, Nat.shiftRight_eq_div_pow]
    interval_cases k <;> omega
  · rw [BitVec.shiftLeft_eq_zero (by omega)]
    rfl

/-- Settles O39: a read shifts (`readTimes_port0`, `readTimes_port1`), and the bit shifted out is that of
`toNat_shiftedOut`. -/
theorem controllerPortsShiftOut : Obligations.ControllerPortsShiftOut := by
  intro s v
  have h0 : memWrite s 0x4016 v = { s with ctrlShift0 := s.controller0 } := memWrite_below s v (by decide)
  have h1 : memWrite s 0x4017 v = { s with ctrlShift1 := s.controller1 } := memWrite_below s v (by decide)
  refine ⟨h0, h1, fun k => ⟨?_, ?_⟩⟩
  · rw [h0, readTimes_port0, peek, memRead_port0]
    exact toNat_shiftedOut _ _
  · rw [h1, readTimes_port1, peek, memRead_port1]
    exact toNat_shiftedOut _ _

end Sys2Proof.Claims

/-! 62_ppu R393 to R402: the eight registers, each through its one access to the PPU. -/

namespace Sys2Proof.Machine

/-! ## The bits and fields that the registers set -/

theorem Ppu.toNat_incrementV (p : Ppu) :
    p.incrementV.v.toNat = (p.v.toNat + (if p.ctrl.getLsbD 2 then 32 else 1)) % 0x8000 := by
  change (p.v + (if p.ctrl.getLsbD 2 then 32 else 1)).toNat = _
  rw [BitVec.toNat_add]
  split <;> rfl

/-- The PPU address that `v` holds. -/
theorem toNat_videoAddr (v : BitVec 15) : (v.setWidth 16 &&& 0x3FFF : Word).toNat = v.toNat % 0x4000 := by
  have hv := v.isLt
  rw [toNat_and_mask _ _ 14 rfl, BitVec.toNat_setWidth]
  omega

theorem videoAddr_palette_iff (v : BitVec 15) :
    (0x3F00 : Word) ≤ (v.setWidth 16 &&& 0x3FFF : Word) ↔ 0x3F00 ≤ v.toNat % 0x4000 := by
  rw [BitVec.le_def, toNat_videoAddr]
  rfl

/-- A PPU bus write leaves PPUCTRL and `v` alone. -/
theorem Ppu.write_ctrl_v (p : Ppu) (c : Cart) (a : Word) (d : Byte) :
    (p.write c a d).1.ctrl = p.ctrl ∧ (p.write c a d).1.v = p.v := by
  unfold Ppu.write
  dsimp only
  split
  · split <;> exact ⟨rfl, rfl⟩
  · split <;> exact ⟨rfl, rfl⟩

/-- PPUADDR's first write sets the bits above the low byte (62_ppu R399). -/
theorem toNat_addrHigh (t : BitVec 15) (d : Byte) :
    (((d &&& 0x3F).setWidth 15 <<< 8) ||| (t &&& 0x00FF) : BitVec 15).toNat = d.toNat % 64 * 256 + t.toNat % 256 := by
  have hlow : (t &&& 0x00FF : BitVec 15).toNat = t.toNat % 2 ^ 8 := toNat_and_mask t _ 8 rfl
  have hhigh : ((d &&& 0x3F).setWidth 15 <<< 8 : BitVec 15).toNat = d.toNat % 64 * 2 ^ 8 := by
    rw [BitVec.toNat_shiftLeft, BitVec.toNat_setWidth, toNat_and_mask d _ 6 rfl, Nat.shiftLeft_eq]
    omega
  rw [toNat_or_of_lt 8 (by omega) (by omega)]
  omega

/-- PPUADDR's second write sets the low byte (62_ppu R399). -/
theorem toNat_addrLow (t : BitVec 15) (d : Byte) :
    ((t &&& 0x7F00) ||| d.setWidth 15 : BitVec 15).toNat = t.toNat / 256 * 256 + d.toNat := by
  have ht : (t &&& 0x7F00 : BitVec 15) = (t >>> 8) <<< 8 := by
    apply BitVec.eq_of_getLsbD_eq
    intro i hi
    interval_cases i <;> simp
  have hhigh : ((t >>> 8) <<< 8 : BitVec 15).toNat = t.toNat / 256 * 2 ^ 8 := by
    have := t.isLt
    rw [BitVec.toNat_shiftLeft, BitVec.toNat_ushiftRight, Nat.shiftLeft_eq, Nat.shiftRight_eq_div_pow]
    omega
  have hlow : (d.setWidth 15).toNat = d.toNat := by rw [BitVec.toNat_setWidth]; omega
  rw [ht, toNat_or_of_lt 8 (by omega) (by omega)]
  omega

/-- PPUSTATUS answers its three flags above the open low bits (62_ppu R396). -/
theorem getLsbD_statusAnswer (status : Byte) (low5 : BitVec 5) (k : Nat) :
    ((status &&& 0xE0) ||| low5.setWidth 8 : Byte).getLsbD k = if k < 5 then low5.getLsbD k else status.getLsbD k := by
  by_cases hk : k < 8
  · interval_cases k <;> simp
  · rw [if_neg (by omega), BitVec.getLsbD_of_ge _ k (by omega), BitVec.getLsbD_of_ge _ k (by omega)]

theorem getLsbD_clearVblank (status : Byte) (k : Nat) :
    (setBit status 7 false).getLsbD k = if k = 7 then false else status.getLsbD k := by
  by_cases hk : k < 8
  · exact getLsbD_setBit status 7 k false hk
  · rw [if_neg (by omega), BitVec.getLsbD_of_ge _ k (by omega), BitVec.getLsbD_of_ge _ k (by omega)]

/-! ## The number of the register (62_ppu R393) -/

theorem toNat_register (a : Word) : (field a 0 3).toNat = a.toNat % 8 := by
  rw [toNat_field]; omega

/-- A read in the PPU's range is that of the register its low three bits number. -/
theorem memRead_register (s : State) {a : Word} (h : PpuRange a) {r : BitVec 3} (hr : a.toNat % 8 = r.toNat) :
    memRead s a = ppuRegRead s r := by
  rw [memRead_ppu s h, BitVec.eq_of_toNat_eq ((toNat_register a).trans hr)]

theorem memWrite_register (s : State) {a : Word} (d : Byte) (h : PpuRange a) {r : BitVec 3}
    (hr : a.toNat % 8 = r.toNat) : memWrite s a d = ppuRegWrite s r d := by
  rw [memWrite_ppu s d h, BitVec.eq_of_toNat_eq ((toNat_register a).trans hr)]

/-- Settles O47: register by register (`memRead_register`). -/
theorem ppuRegisterReads : Obligations.PpuRegisterReads := by
  intro s a h r x p
  have at_register (k : BitVec 3) (hk : r = k.toNat) : x = ppuRegRead s k := memRead_register s h hk
  refine ⟨fun hr => ?_, fun hr => ?_, fun hr => at_register 4 hr, fun hr => ?_⟩
  · obtain hr | hr | hr | hr | hr := hr
    · exact at_register 0 hr
    · exact at_register 1 hr
    · exact at_register 3 hr
    · exact at_register 5 hr
    · exact at_register 6 hr
  · have hx : x = ((s.ppu.readStatus s.config.statusLow5).1,
        { s with ppu := (s.ppu.readStatus s.config.statusLow5).2 }) := at_register 2 hr
    refine ⟨fun k => ?_, fun k => ?_, ?_⟩
    · rw [hx]
      exact getLsbD_statusAnswer _ _ k
    · simp only [p, hx, Ppu.readStatus]
      exact getLsbD_clearVblank _ k
    · simp only [p, hx, Ppu.readStatus]
  · have hx : x = ((s.ppu.readData s.cart).1, { s with ppu := (s.ppu.readData s.cart).2 }) := at_register 7 hr
    refine ⟨?_, ?_, ?_⟩
    · simp only [hx, Ppu.readData, videoAddr_palette_iff]
    · simp only [p, hx, Ppu.readData, Ppu.incrementV]
    · simp only [p, hx, Ppu.readData, Ppu.toNat_incrementV]

/-- Settles O48: register by register (`memWrite_register`). -/
theorem ppuRegisterWrites : Obligations.PpuRegisterWrites := by
  intro s a d h r u p
  have at_register (k : BitVec 3) (hk : r = k.toNat) : u = ppuRegWrite s k d := memWrite_register s d h hk
  refine ⟨fun hr => ?_, fun hr => at_register 1 hr, fun hr => at_register 2 hr, fun hr => at_register 3 hr,
    fun hr => ?_, fun hr latch => ?_, fun hr latch => ?_, fun hr latch => ?_, fun hr latch => ?_, fun hr => ?_⟩
  · have hu : u = { s with ppu := s.ppu.writeCtrl d } := at_register 0 hr
    refine ⟨by simp only [p, hu, Ppu.writeCtrl], fun k => ?_⟩
    simp only [p, hu, Ppu.writeCtrl, getLsbD_setField, getLsbD_field]
    by_cases hk : k < 15
    · interval_cases k <;> simp
    · simp [hk, show k ≠ 10 by omega, show k ≠ 11 by omega]
  · have hu : u = { s with ppu := { s.ppu with
        oam := s.ppu.oam.write s.ppu.oamAddr.toNat d, oamAddr := s.ppu.oamAddr + 1 } } := at_register 4 hr
    exact ⟨by simp only [p, hu], fun n => by simp only [p, hu, Memory.read_write]⟩
  · have hu : u = { s with ppu := { s.ppu with
        fineX := field d 0 3, t := setField s.ppu.t 0 (field d 3 5), addressLatch := true } } :=
      (at_register 5 hr).trans (by simp [ppuRegWrite, Ppu.regWrite, Ppu.writeScroll, latch])
    refine ⟨by simp only [p, hu], ?_, fun k => ?_⟩
    · simp only [p, hu, toNat_field]
      omega
    · simp only [p, hu, getLsbD_setField, getLsbD_field]
      by_cases hk : k < 5
      · simp [hk, show k < 15 by omega, Nat.add_comm]
      · simp [hk]
  · have hu : u = { s with ppu := { s.ppu with
        t := setField (setField s.ppu.t 12 (field d 0 3)) 5 (field d 3 5), addressLatch := false } } :=
      (at_register 5 hr).trans (by simp [ppuRegWrite, Ppu.regWrite, Ppu.writeScroll, latch])
    refine ⟨by simp only [p, hu], fun k => ?_⟩
    simp only [p, hu, getLsbD_setField, getLsbD_field]
    by_cases hk : k < 15
    · interval_cases k <;> simp
    · simp [hk, show ¬ k < 10 by omega]
  · have hu : u = { s with ppu := { s.ppu with
        t := ((d &&& 0x3F).setWidth 15 <<< 8) ||| (s.ppu.t &&& 0x00FF), addressLatch := true } } :=
      (at_register 6 hr).trans (by simp [ppuRegWrite, Ppu.regWrite, Ppu.writeAddr, latch])
    exact ⟨by simp only [p, hu], by simp only [p, hu, toNat_addrHigh]⟩
  · have hu : u = { s with ppu := { s.ppu with
        t := (s.ppu.t &&& 0x7F00) ||| d.setWidth 15
        v := (s.ppu.t &&& 0x7F00) ||| d.setWidth 15
        addressLatch := false } } :=
      (at_register 6 hr).trans (by simp [ppuRegWrite, Ppu.regWrite, Ppu.writeAddr, latch])
    exact ⟨by simp only [p, hu], by simp only [p, hu, toNat_addrLow]⟩
  · have hu : u = { s with ppu := (s.ppu.writeData s.cart d).1, cart := (s.ppu.writeData s.cart d).2 } :=
      at_register 7 hr
    obtain ⟨ctrl, v⟩ := s.ppu.write_ctrl_v s.cart (s.ppu.v.setWidth 16) d
    refine ⟨by simp only [p, hu, Ppu.writeData, Ppu.incrementV], ?_⟩
    simp only [p, hu, Ppu.writeData, Ppu.toNat_incrementV, ctrl, v]

end Sys2Proof.Machine

/-! 64_mappers: the PRG and CHR windows as arithmetic on the address, and the register writes of M1 and M4. -/

namespace Sys2Proof.Machine

open Sys2Proof.Claims

/-! ## The PRG windows (R504, R510, R523, R530, R544) -/

theorem Cart.prgBanks_pos {c : Cart} (hv : c.valid = true) : 1 ≤ c.prgBanks := by
  unfold Cart.valid at hv
  split at hv
  · simp only [Bool.or_eq_true, beq_iff_eq] at hv
    omega
  all_goals exact of_decide_eq_true hv

/-- M0's window is the whole 32 KiB, of which one bank answers twice. -/
theorem m0PrgOffset_mod {n : Nat} (hn : n = 1 ∨ n = 2) (a : Word) (h : 0x8000 ≤ a.toNat) :
    m0PrgOffset n a % (n * 16384) = (a.toNat - 0x8000) % (n * 16384) := by
  have ha := a.isLt
  have h14 : (a &&& 0x3FFF).toNat = a.toNat % 2 ^ 14 := toNat_and_mask a _ 14 rfl
  have h15 : (a &&& 0x7FFF).toNat = a.toNat % 2 ^ 15 := toNat_and_mask a _ 15 rfl
  obtain rfl | rfl := hn <;> simp only [m0PrgOffset, h14, h15] <;> simp <;> omega

theorem m1PrgOffset_eq (c : Cart) {r : Mmc1} (hm : c.mapper = .m1 r) (a : Word) (h : 0x8000 ≤ a.toNat) :
    m1PrgOffset r c.prgBanks a = prgWindow c (a.toNat - 0x8000) := by
  have ha := a.isLt
  have h14 : (a &&& 0x3FFF).toNat = (a.toNat - 0x8000) % 0x4000 := by rw [toNat_and_mask a _ 14 rfl]; omega
  have h15 : (a &&& 0x7FFF).toNat = a.toNat - 0x8000 := by rw [toNat_and_mask a _ 15 rfl]; omega
  have hC : a < 0xC000 ↔ a.toNat - 0x8000 < 0x4000 := by bv_omega
  have hmode : (field r.control 2 2).toNat = r.control.toNat / 4 % 4 := toNat_field _ _ _
  have hbank : (field r.prgBank 0 4).toNat = r.prgBank.toNat % 16 := by rw [toNat_field]; omega
  have hpair : (field r.prgBank 1 3).toNat = r.prgBank.toNat % 16 / 2 := by rw [toNat_field]; omega
  have hlow (h0 : a.toNat - 0x8000 < 0x4000) : (a.toNat - 0x8000) % 0x4000 = a.toNat - 0x8000 := Nat.mod_eq_of_lt h0
  simp only [m1PrgOffset, prgWindow, hm, h14, h15, hC, hmode, hbank, hpair]
  obtain mode | mode | mode | mode : r.control.toNat / 4 % 4 = 0 ∨ r.control.toNat / 4 % 4 = 1 ∨
      r.control.toNat / 4 % 4 = 2 ∨ r.control.toNat / 4 % 4 = 3 := by omega
  · simp only [mode]
  · simp only [mode]
  · simp only [mode]
    split
    · exact hlow ‹_›
    · rfl
  · simp only [mode]
    split <;> rfl

theorem m2PrgOffset_eq (c : Cart) {r : Uxrom} (hm : c.mapper = .m2 r) (a : Word) (h : 0x8000 ≤ a.toNat) :
    m2PrgOffset r a = prgWindow c (a.toNat - 0x8000) := by
  have h14 : (a &&& 0x3FFF).toNat = (a.toNat - 0x8000) % 0x4000 := by rw [toNat_and_mask a _ 14 rfl]; omega
  have hC : a < 0xC000 ↔ a.toNat - 0x8000 < 0x4000 := by bv_omega
  simp only [m2PrgOffset, prgWindow, hm, h14, hC]

theorem m4PrgOffset_eq (c : Cart) {r : Mmc3} (hm : c.mapper = .m4 r) (a : Word) (h : 0x8000 ≤ a.toNat) :
    m4PrgOffset r c.prgBanks a = prgWindow c (a.toNat - 0x8000) := by
  have ha := a.isLt
  have h13 : (a &&& 0x1FFF).toNat = (a.toNat - 0x8000) % 0x2000 := by rw [toNat_and_mask a _ 13 rfl]; omega
  have hw : (addrPair a).toNat = (a.toNat - 0x8000) / 0x2000 := by rw [addrPair_toNat]; omega
  have h6 (b : Byte) : (b &&& 0x3F).toNat = b.toNat % 64 := toNat_and_mask b _ 6 rfl
  obtain w | w | w | w : (a.toNat - 0x8000) / 0x2000 = 0 ∨ (a.toNat - 0x8000) / 0x2000 = 1 ∨
      (a.toNat - 0x8000) / 0x2000 = 2 ∨ (a.toNat - 0x8000) / 0x2000 = 3 := by omega
  all_goals simp only [m4PrgOffset, m4PrgBank, prgWindow, hm, h13, hw, h6, w]

/-- A read at $8000 and above is mapped to its window's bank, reduced into the store. -/
theorem Cart.cpuMapRead_window {c : Cart} (hv : c.valid = true) (ram : Bool) {a : Word} (h : 0x8000 ≤ a) :
    c.cpuMapRead ram a = .prg (prgWindow c (a.toNat - 0x8000) % (c.prgBanks * 16384)) := by
  have ha : 0x8000 ≤ a.toNat := h
  cases hm : c.mapper with
  | m0 =>
    have hb : c.prgBanks = 1 ∨ c.prgBanks = 2 := by simpa [Cart.valid, hm] using hv
    simp only [Cart.cpuMapRead, hm, h, if_true, Cart.prgSize, m0PrgOffset_mod hb a ha, prgWindow]
  | m1 r => simp only [Cart.cpuMapRead, hm, h, if_true, Cart.prgSize, m1PrgOffset_eq c hm a ha]
  | m2 r => simp only [Cart.cpuMapRead, hm, h, if_true, Cart.prgSize, m2PrgOffset_eq c hm a ha]
  | m4 r => simp only [Cart.cpuMapRead, hm, h, if_true, Cart.prgSize, m4PrgOffset_eq c hm a ha]

/-! ## The CHR windows (R511, R524, R531, R545) -/

theorem m1ChrOffset_eq (c : Cart) {r : Mmc1} (hm : c.mapper = .m1 r) (rom : c.chrBanks ≠ 0) {a : Word}
    (h : a.toNat ≤ 0x1FFF) : m1ChrOffset r a = chrWindow c a.toNat := by
  have h12 : (a &&& 0x0FFF).toNat = a.toNat % 0x1000 := toNat_and_mask a _ 12 rfl
  have h13 : (a &&& 0x1FFF).toNat = a.toNat := by rw [toNat_and_mask a _ 13 rfl]; omega
  have hlow : a ≤ 0x0FFF ↔ a.toNat < 0x1000 := by bv_omega
  have hpair (b : BitVec 5) : (b &&& 0x1E).toNat = b.toNat / 2 * 2 := by revert b; decide
  have hmode (b : BitVec 5) : b.getLsbD 4 = true ↔ ¬ b.toNat / 16 = 0 := by revert b; decide
  simp only [m1ChrOffset, chrWindow, hm, rom, h12, h13, hlow, hpair, hmode, if_false]
  by_cases hc : r.control.toNat / 16 = 0
  · rw [if_neg (not_not_intro hc), if_pos hc]
    omega
  · rw [if_pos hc, if_neg hc]
    split <;> rfl

theorem m4ChrOffset_eq (c : Cart) {r : Mmc3} (hm : c.mapper = .m4 r) {a : Word} (h : a.toNat ≤ 0x1FFF) :
    m4ChrOffset r a = chrWindow c a.toNat := by
  have h10 : (a &&& 0x03FF).toNat = a.toNat % 0x0400 := toNat_and_mask a _ 10 rfl
  have hw : (field a 10 3).toNat = a.toNat / 0x0400 := by rw [toNat_field]; omega
  have hinv (w : BitVec 3) : (w ^^^ 4).toNat = (w.toNat + 4) % 8 := by revert w; decide
  have heven (b : Byte) : (b &&& 0xFE).toNat = b.toNat / 2 * 2 := by revert b; decide
  have hodd (b : Byte) : (b ||| 1).toNat = b.toNat / 2 * 2 + 1 := by revert b; decide
  have hwin : (if r.chrInvert then field a 10 3 ^^^ 4 else field a 10 3 : BitVec 3).toNat =
      if r.chrInvert then (a.toNat / 0x0400 + 4) % 8 else a.toNat / 0x0400 := by
    rw [← hw, ← hinv]; split <;> rfl
  have hlt : (if r.chrInvert then (a.toNat / 0x0400 + 4) % 8 else a.toNat / 0x0400) < 8 := by split <;> omega
  generalize hv : (if r.chrInvert then (a.toNat / 0x0400 + 4) % 8 else a.toNat / 0x0400) = w at hlt hwin
  interval_cases w
  all_goals simp only [m4ChrOffset, m4ChrBank, chrWindow, hm, h10, hwin, hv, heven, hodd]

theorem Cart.chrSize_eq (c : Cart) : c.chrSize = chrBytes c := rfl

/-- A pattern address is that of its CHR cell on every mapper. -/
theorem Cart.chrOffset_eq_chrCell (c : Cart) {a : Word} (h : a ≤ 0x1FFF) : c.chrOffset a = chrCell c a := by
  have ha : a.toNat ≤ 0x1FFF := h
  cases hm : c.mapper with
  | m0 => simp only [Cart.chrOffset, Cart.chrSize_eq, chrCell, chrWindow, hm]
  | m1 r =>
    by_cases rom : c.chrBanks = 0
    · simp only [Cart.chrOffset, Cart.chrSize_eq, chrCell, chrWindow, hm, rom, if_true]
    · simp only [Cart.chrOffset, Cart.chrSize_eq, chrCell, hm, rom, if_false, m1ChrOffset_eq c hm rom ha]
  | m2 r => simp only [Cart.chrOffset, Cart.chrSize_eq, chrCell, chrWindow, hm]
  | m4 r => simp only [Cart.chrOffset, Cart.chrSize_eq, chrCell, hm, m4ChrOffset_eq c hm ha]

theorem chrBytes_pos (c : Cart) : 0 < chrBytes c := by
  unfold chrBytes; split <;> omega

/-- The PPU's bus address of a 16-bit address below $4000. -/
theorem and_0x3FFF_of_le {a : Word} (h : a ≤ 0x3FFF) : a &&& 0x3FFF = a := by
  have ha : a.toNat ≤ 0x3FFF := h
  apply BitVec.eq_of_toNat_eq
  rw [toNat_and_mask a _ 14 rfl]
  omega

/-- A pattern read is the byte of its CHR cell (62_ppu R382). -/
theorem Ppu.read_pattern (p : Ppu) (c : Cart) {a : Word} (h : a &&& 0x3FFF ≤ 0x1FFF) :
    p.read c a = c.chr.read (chrCell c (a &&& 0x3FFF)) := by
  simp only [Ppu.read, h, if_true, Cart.chrRead, c.chrOffset_eq_chrCell h]

/-- A pattern write reaches its CHR cell where the store is RAM (62_ppu R382). -/
theorem Ppu.write_pattern_ram (p : Ppu) {c : Cart} (ram : c.chrBanks = 0) {a : Word} (h : a &&& 0x3FFF ≤ 0x1FFF)
    (v : Byte) : p.write c a v = (p, { c with chr := c.chr.write (chrCell c (a &&& 0x3FFF)) v }) := by
  simp only [Ppu.write, h, if_true, Cart.chrWrite, ram, c.chrOffset_eq_chrCell h]

/-- A pattern write does not reach CHR ROM (62_ppu R382). -/
theorem Ppu.write_pattern_rom (p : Ppu) {c : Cart} (rom : c.chrBanks ≠ 0) {a : Word} (h : a &&& 0x3FFF ≤ 0x1FFF)
    (v : Byte) :
    p.write c a v = ({ p with pattern := p.pattern.write (a &&& 0x3FFF &&& 0x1FFF).toNat v }, c) := by
  simp only [Ppu.write, h, if_true, Cart.chrWrite, rom, if_false]

/-! ## Register writes at $8000 and above -/

theorem memWrite_m0 {s : State} (hm : s.cart.mapper = .m0) {a : Word} (h : 0x8000 ≤ a) (d : Byte) :
    memWrite s a d = s := by
  simp only [memWrite, Cart.cpuMapWrite, hm]
  exact busWrite_unhandled s d (by bv_omega)

theorem memWrite_m1 {s : State} {r : Mmc1} (hm : s.cart.mapper = .m1 r) {a : Word} (h : 0x8000 ≤ a) (d : Byte) :
    memWrite s a d = { s with cart := { s.cart with mapper := .m1 (r.writeReg a d) } } := by
  simp only [memWrite, Cart.cpuMapWrite, hm, h, if_true]

theorem memWrite_m2 {s : State} {r : Uxrom} (hm : s.cart.mapper = .m2 r) {a : Word} (h : 0x8000 ≤ a) (d : Byte) :
    memWrite s a d = { s with cart := { s.cart with mapper := .m2 { r with prgBankLo := field d 0 4 } } } := by
  simp only [memWrite, Cart.cpuMapWrite, hm, h, if_true]

theorem memWrite_m4 {s : State} {r : Mmc3} (hm : s.cart.mapper = .m4 r) {a : Word} (h : 0x8000 ≤ a) (d : Byte) :
    memWrite s a d = { s with cart := { s.cart with mapper := .m4 (r.writeReg a d) } } := by
  simp only [memWrite, Cart.cpuMapWrite, hm, h, if_true]

/-- Settles O55: the windows by `Cart.cpuMapRead_window` and `Ppu.read_pattern`, the writes by the equations of the
mapper and of the pattern region. -/
theorem prgWindowsSelectTheirBanks : Obligations.PrgWindowsSelectTheirBanks := by
  intro s a d hv ha off
  have hbanks := Cart.prgBanks_pos hv
  refine ⟨by simp only [memRead, Cart.cpuMapRead_window hv _ ha, off], Nat.mod_lt _ (by omega), fun b hb => ?_,
    fun hm => memWrite_m0 hm ha d, fun r hm => ⟨_, memWrite_m2 hm ha d, ?_, rfl⟩⟩
  · have hb' : b &&& 0x3FFF = b := and_0x3FFF_of_le (by bv_omega)
    have hp : b &&& 0x3FFF ≤ 0x1FFF := by rwa [hb']
    refine ⟨by rw [Ppu.read_pattern _ _ hp, hb'], Nat.mod_lt _ (chrBytes_pos _), fun ram => ?_, fun rom => ?_⟩
    · simp only [Ppu.write_pattern_ram _ ram hp, hb']
      exact ⟨trivial, fun k => Memory.read_write _ _ _ _⟩
    · simp only [Ppu.write_pattern_rom _ rom hp]
  · rw [toNat_field]; omega

/-! ## M1's serial port (R522) -/

/-- The load register after a data write: shifted right, bit 0 of the byte on top. -/
def serialIn (load : BitVec 5) (d : Byte) : BitVec 5 := (load >>> 1) ||| ((field d 0 1).setWidth 5 <<< 4)

theorem toNat_serialIn (load : BitVec 5) (d : Byte) : (serialIn load d).toNat = load.toNat / 2 + d.toNat % 2 * 16 := by
  have hload := load.isLt
  have hbit : ((field d 0 1).setWidth 5 <<< 4 : BitVec 5).toNat = d.toNat % 2 * 16 := by
    rw [BitVec.toNat_shiftLeft, BitVec.toNat_setWidth, toNat_field, Nat.shiftLeft_eq]
    omega
  have hshift : (load >>> 1).toNat = load.toNat / 2 := by rw [BitVec.toNat_ushiftRight, Nat.shiftRight_eq_div_pow]
  rw [serialIn, BitVec.or_comm, toNat_or_of_lt 4 (by omega) (by omega), hbit, hshift, Nat.add_comm]

theorem Mmc1.writeReg_restart (r : Mmc1) (a : Word) {d : Byte} (h : d.getLsbD 7 = true) :
    r.writeReg a d = { r with load := 0, loadCount := 0, control := r.control ||| 0x0C } := by
  rw [Mmc1.writeReg, if_pos h]

theorem Mmc1.writeReg_shift (r : Mmc1) (a : Word) {d : Byte} (h : d.getLsbD 7 = false) (count : r.loadCount ≠ 4) :
    r.writeReg a d = { r with load := serialIn r.load d, loadCount := r.loadCount + 1 } := by
  rw [Mmc1.writeReg, if_neg (by rw [h]; decide)]
  dsimp only
  rw [if_neg (by omega)]
  rfl

/-- The fifth data write loads the register that its address names. -/
theorem Mmc1.writeReg_load (r : Mmc1) (a : Word) {d : Byte} (h : d.getLsbD 7 = false) (count : r.loadCount = 4) :
    r.writeReg a d =
      match a.toNat / 0x2000 % 4 with
      | 0 => { r with load := 0, loadCount := 0, control := serialIn r.load d }
      | 1 => { r with load := 0, loadCount := 0, chrBank0 := serialIn r.load d }
      | 2 => { r with load := 0, loadCount := 0, chrBank1 := serialIn r.load d }
      | _ => { r with load := 0, loadCount := 0, prgBank := serialIn r.load d } := by
  rw [Mmc1.writeReg, if_neg (by rw [h]; decide)]
  dsimp only
  rw [if_pos (by omega), addrPair_toNat]
  obtain pair | pair | pair | pair : a.toNat / 0x2000 % 4 = 0 ∨ a.toNat / 0x2000 % 4 = 1 ∨ a.toNat / 0x2000 % 4 = 2 ∨
      a.toNat / 0x2000 % 4 = 3 := by omega
  all_goals simp only [pair] <;> rfl

/-- Settles O56: a write is one step of the serial port (`memWrite_m1`); five steps by the three cases of one. -/
theorem mmc1LoadsAfterFiveWrites : Obligations.Mmc1LoadsAfterFiveWrites := by
  intro s r hm with1
  have write (q : Mmc1) {a : Word} (ha : 0x8000 ≤ a) (d : Byte) : memWrite (with1 q) a d = with1 (q.writeReg a d) :=
    memWrite_m1 rfl ha d
  refine ⟨fun a d ha h => ?_, fun a d ha h count => ⟨serialIn r.load d, ?_, toNat_serialIn _ _⟩,
    fun count a0 a1 a2 a3 a4 d0 d1 d2 d3 d4 ha hd => ?_⟩
  · rw [memWrite_m1 hm ha, r.writeReg_restart a h]
  · rw [memWrite_m1 hm ha, r.writeReg_shift a h count]
  · simp only [List.forall_mem_cons, List.not_mem_nil, false_implies, implies_true, and_true] at ha hd
    obtain ⟨ha0, ha1, ha2, ha3, ha4⟩ := ha
    obtain ⟨hd0, hd1, hd2, hd3, hd4⟩ := hd
    refine ⟨serialIn (serialIn (serialIn (serialIn (serialIn r.load d0) d1) d2) d3) d4, ?_, ?_⟩
    · have := r.load.isLt
      simp only [toNat_serialIn]
      omega
    · have first : memWrite s a0 d0 = with1 (r.writeReg a0 d0) := memWrite_m1 hm ha0 d0
      rw [first, write _ ha1, write _ ha2, write _ ha3, write _ ha4, r.writeReg_shift a0 hd0 (by omega),
        Mmc1.writeReg_shift _ a1 hd1 (by simp [count]), Mmc1.writeReg_shift _ a2 hd2 (by simp [count]),
        Mmc1.writeReg_shift _ a3 hd3 (by simp [count])]
      refine (congrArg with1 (Mmc1.writeReg_load _ a4 hd4 (by simp [count]))).trans ?_
      obtain pair | pair | pair | pair : a4.toNat / 0x2000 % 4 = 0 ∨ a4.toNat / 0x2000 % 4 = 1 ∨
          a4.toNat / 0x2000 % 4 = 2 ∨ a4.toNat / 0x2000 % 4 = 3 := by omega
      all_goals simp only [pair]

/-! ## M4's registers and its scanline counter (R533 to R542) -/

/-- M4's mirror register is the mirroring in force (62_ppu R383, R534). -/
theorem Cart.mirrorMode_m4 {c : Cart} {r : Mmc3} (hm : c.mapper = .m4 r) (h : r.mirror ≠ .hardwareDefined) :
    c.mirrorMode = r.mirror := by
  simp only [Cart.mirrorMode, Mapper.mirrorMode, hm]

theorem getLsbD_zero_eq_decide (a : Word) : a.getLsbD 0 = decide (a.toNat % 2 = 1) := by
  rw [BitVec.getLsbD, Nat.testBit_zero]

/-- Settles O57: the write is one register write of M4 (`memWrite_m4`), read off for each pair and parity. -/
theorem mmc3RegistersByPair : Obligations.Mmc3RegistersByPair := by
  intro s r a d hm ha pair odd
  have hw := memWrite_m4 hm ha d
  have hpair : (addrPair a).toNat = pair := addrPair_toNat a
  have hodd : a.getLsbD 0 = decide odd := getLsbD_zero_eq_decide a
  have inForce : pair = 1 ∧ ¬ odd → (memWrite s a d).cart.mirrorMode = (r.writeReg a d).mirror := fun ⟨p, o⟩ => by
    rw [hw]
    refine Cart.mirrorMode_m4 rfl ?_
    simp only [Mmc3.writeReg, hpair, hodd, p, o, decide_false]
    split <;> decide
  refine ⟨r.writeReg a d, hw, ?_⟩
  rw [iff_true_intro inForce]
  obtain p | p | p | p : pair = 0 ∨ pair = 1 ∨ pair = 2 ∨ pair = 3 := by omega
  all_goals
    by_cases o : odd
    all_goals
      simp only [Mmc3.writeReg, hpair, hodd, p, o, decide_true, decide_false]
      simp [toNat_field, Vector.getElem_set, eq_comm (a := r.target.toNat)]

/-- `f` applied once more. -/
theorem times_succ {α : Type} (f : α → α) (n : Nat) (x : α) : times f (n + 1) x = f (times f n x) := by
  induction n generalizing x with
  | zero => rfl
  | succ n ih => exact ih (f x)

/-- The counter and the line after `k + 1` ticks from a counter of 0, up to the tick at which it is 0 again. -/
theorem Mmc3.times_scanlineTick {r : Mmc3} (counter : r.irqCounter = 0) (line : r.irqActive = false) {k : Nat}
    (hk : k ≤ r.irqLatch.toNat) :
    times Mmc3.scanlineTick (k + 1) r =
      { r with
        irqCounter := r.irqLatch - BitVec.ofNat 8 k
        irqActive := decide (k = r.irqLatch.toNat) && r.irqEnable } := by
  have hlatch := r.irqLatch.isLt
  induction k with
  | zero =>
    have hzero : (r.irqLatch == 0) = decide (0 = r.irqLatch.toNat) := by
      rw [beq_eq_decide, decide_eq_decide, ← BitVec.toNat_inj, eq_comm]; rfl
    simp only [times, Mmc3.scanlineTick, counter, line, hzero, if_true, Bool.false_or, BitVec.sub_zero]
  | succ k ih =>
    have hnext : r.irqLatch - BitVec.ofNat 8 k - 1 = r.irqLatch - BitVec.ofNat 8 (k + 1) := by bv_omega
    have hcounting : r.irqLatch - BitVec.ofNat 8 k ≠ 0 := by bv_omega
    have hzero : (r.irqLatch - BitVec.ofNat 8 (k + 1) == 0) = decide (k + 1 = r.irqLatch.toNat) := by
      rw [beq_eq_decide, decide_eq_decide]; bv_omega
    rw [times_succ, ih (by omega)]
    simp only [Mmc3.scanlineTick, hcounting, if_false, hnext, hzero, show k ≠ r.irqLatch.toNat by omega, decide_false,
      Bool.false_and, Bool.false_or]

/-- Settles O58: the ticks up to the counter's zero by `Mmc3.times_scanlineTick`. -/
theorem mmc3CountsScanlines : Obligations.Mmc3CountsScanlines := by
  intro r counter line
  refine ⟨fun k hk => ?_, ?_, fun c hm => ⟨?_, ?_⟩, fun c q hm => ⟨rfl, ?_, ?_⟩⟩
  · rw [Mmc3.times_scanlineTick counter line hk]
    refine ⟨?_, fun hlt => ?_⟩
    · dsimp only
      bv_omega
    · simp [show k ≠ r.irqLatch.toNat by omega]
  · rw [Mmc3.times_scanlineTick counter line (Nat.le_refl _)]
    simp
  · simp only [Cart.scanlineTick, hm]
  · simp only [Cart.irqState, hm, line]
  · simp only [Cart.irqState, hm]
  · simp only [Cart.irqClear, hm]

end Sys2Proof.Machine

/-! 62_ppu R380 to R391: the PPU bus. Each region has one index that says when two addresses are one cell; a read after a
write is the store's law at that index. -/

namespace Sys2Proof

/-- A bit of a vector as a number. -/
theorem ite_getLsbD_eq {w : Nat} (v : BitVec w) (k : Nat) : (if v.getLsbD k then 1 else 0) = v.toNat / 2 ^ k % 2 := by
  rw [← Nat.toNat_testBit, BitVec.getLsbD]
  cases v.toNat.testBit k <;> rfl

theorem getLsbD_eq_getLsbD_iff {w : Nat} (x y : BitVec w) (k : Nat) :
    x.getLsbD k = y.getLsbD k ↔ x.toNat / 2 ^ k % 2 = y.toNat / 2 ^ k % 2 := by
  rw [← ite_getLsbD_eq, ← ite_getLsbD_eq]
  cases x.getLsbD k <;> cases y.getLsbD k <;> decide

end Sys2Proof

namespace Sys2Proof.Machine

open Sys2Proof.Claims

/-! ## The index of a cell (R383, R389) -/

theorem nametableIndex_eq (m : MirrorMode) (a : Word) : nametableIndex m a = physicalBank m a * 1024 + a.toNat % 1024 := by
  have hoff : (a &&& 0x03FF).toNat = a.toNat % 1024 := toNat_and_mask a _ 10 rfl
  have h11 : (if (field a 10 2).getLsbD 1 then 1 else 0) = a.toNat / 2048 % 2 := by
    rw [getLsbD_field]; exact ite_getLsbD_eq a 11
  have h10 : (if (field a 10 2).getLsbD 0 then 1 else 0) = a.toNat / 1024 % 2 := by
    rw [getLsbD_field]; exact ite_getLsbD_eq a 10
  cases m <;> simp only [nametableIndex, nametableBank, physicalBank, hoff, h10, h11]

theorem sameNametable_iff (m : MirrorMode) (x y : Word) : SameNametable m x y ↔ physicalBank m x = physicalBank m y := by
  cases m with
  | horizontal => exact getLsbD_eq_getLsbD_iff x y 11
  | vertical => exact getLsbD_eq_getLsbD_iff x y 10
  | oneScreenLo => exact iff_of_true trivial rfl
  | oneScreenHi => exact iff_of_true trivial rfl
  | hardwareDefined => exact getLsbD_eq_getLsbD_iff x y 11

theorem nametableIndex_eq_iff (m : MirrorMode) (x y : Word) :
    nametableIndex m x = nametableIndex m y ↔ x.toNat % 1024 = y.toNat % 1024 ∧ SameNametable m x y := by
  rw [sameNametable_iff, nametableIndex_eq, nametableIndex_eq]
  omega

/-- The aliases $10, $14, $18 and $1C are the only two addresses of one palette cell within an image. -/
theorem palIndex_eq_iff (x y : Word) :
    palIndex x = palIndex y ↔
      x.toNat % 32 = y.toNat % 32 ∨ (x.toNat % 16 = y.toNat % 16 ∧ x.toNat % 4 = 0) := by
  have h (a : Word) : (a &&& 0x1F).toNat = a.toNat % 32 := toNat_and_mask a _ 5 rfl
  simp only [palIndex, h]
  split <;> split <;> omega

/-! ## The regions -/

theorem videoRegion (x : Word) : x ≤ 0x1FFF ∨ (0x2000 ≤ x ∧ x ≤ 0x3EFF) ∨ 0x3F00 ≤ x := by bv_omega

theorem Ppu.read_nametable (p : Ppu) (c : Cart) {a : Word} (lo : 0x2000 ≤ a &&& 0x3FFF) (hi : a &&& 0x3FFF ≤ 0x3EFF) :
    p.read c a = p.nametable.read (nametableIndex c.mirrorMode (a &&& 0x3FFF)) := by
  have h1 : ¬ a &&& 0x3FFF ≤ 0x1FFF := by bv_omega
  simp only [Ppu.read, h1, hi, if_true, if_false]

theorem Ppu.read_palette (p : Ppu) (c : Cart) {a : Word} (h : 0x3F00 ≤ a &&& 0x3FFF) :
    p.read c a = p.palette.read (palIndex (a &&& 0x3FFF)) &&& (if p.mask.getLsbD 0 then 0x30 else 0x3F) := by
  have h1 : ¬ a &&& 0x3FFF ≤ 0x1FFF := by bv_omega
  have h2 : ¬ a &&& 0x3FFF ≤ 0x3EFF := by bv_omega
  simp only [Ppu.read, h1, h2, if_false]
  rfl

theorem Ppu.write_nametable (p : Ppu) (c : Cart) {a : Word} (lo : 0x2000 ≤ a &&& 0x3FFF) (hi : a &&& 0x3FFF ≤ 0x3EFF)
    (v : Byte) : p.write c a v =
      ({ p with nametable := p.nametable.write (nametableIndex c.mirrorMode (a &&& 0x3FFF)) v }, c) := by
  have h1 : ¬ a &&& 0x3FFF ≤ 0x1FFF := by bv_omega
  simp only [Ppu.write, h1, hi, if_true, if_false]

theorem Ppu.write_palette (p : Ppu) (c : Cart) {a : Word} (h : 0x3F00 ≤ a &&& 0x3FFF) (v : Byte) :
    p.write c a v = ({ p with palette := p.palette.write (palIndex (a &&& 0x3FFF)) v }, c) := by
  have h1 : ¬ a &&& 0x3FFF ≤ 0x1FFF := by bv_omega
  have h2 : ¬ a &&& 0x3FFF ≤ 0x3EFF := by bv_omega
  simp only [Ppu.write, h1, h2, if_false]

section
variable (c : Cart) {a : Word} (b : Word)

theorem sameVideoCell_of_pattern (h : a &&& 0x3FFF ≤ 0x1FFF) :
    SameVideoCell c a b ↔
      b &&& 0x3FFF ≤ 0x1FFF ∧ c.chrBanks = 0 ∧ chrCell c (b &&& 0x3FFF) = chrCell c (a &&& 0x3FFF) := by
  have h1 : ¬ 0x2000 ≤ a &&& 0x3FFF := by bv_omega
  have h2 : ¬ 0x3F00 ≤ a &&& 0x3FFF := by bv_omega
  simp only [SameVideoCell, h, h1, h2, true_and, false_and, or_false, eq_comm]

theorem sameVideoCell_of_nametable (lo : 0x2000 ≤ a &&& 0x3FFF) (hi : a &&& 0x3FFF ≤ 0x3EFF) :
    SameVideoCell c a b ↔
      0x2000 ≤ b &&& 0x3FFF ∧ b &&& 0x3FFF ≤ 0x3EFF ∧
        nametableIndex c.mirrorMode (b &&& 0x3FFF) = nametableIndex c.mirrorMode (a &&& 0x3FFF) := by
  have h1 : ¬ a &&& 0x3FFF ≤ 0x1FFF := by bv_omega
  have h2 : ¬ 0x3F00 ≤ a &&& 0x3FFF := by bv_omega
  rw [eq_comm, nametableIndex_eq_iff]
  simp only [SameVideoCell, lo, hi, h1, h2, true_and, false_and, false_or, or_false]

theorem sameVideoCell_of_palette (h : 0x3F00 ≤ a &&& 0x3FFF) :
    SameVideoCell c a b ↔
      0x3F00 ≤ b &&& 0x3FFF ∧ palIndex (b &&& 0x3FFF) = palIndex (a &&& 0x3FFF) := by
  have h1 : ¬ a &&& 0x3FFF ≤ 0x1FFF := by bv_omega
  have h2 : ¬ a &&& 0x3FFF ≤ 0x3EFF := by bv_omega
  rw [eq_comm, palIndex_eq_iff]
  simp only [SameVideoCell, h, h1, h2, true_and, false_and, and_false, false_or]

end

/-! ## A read after a write -/

/-- What a read of `b` answers after the write of `v` to the cell of `b` (62_ppu R391). -/
def readBack (p : Ppu) (b : Word) (v : Byte) : Byte :=
  if 0x3F00 ≤ (b &&& 0x3FFF) then v &&& (if p.mask.getLsbD 0 then 0x30 else 0x3F) else v

/-- The write `w` of `v` at `a` is read back at `b` if it is the cell of `a`, and leaves `b` as it was otherwise. -/
def ReadsBack (p : Ppu) (c : Cart) (a b : Word) (v : Byte) (w : Ppu × Cart) : Prop :=
  (SameVideoCell c a b → w.1.read w.2 b = readBack p b v) ∧
    (¬ SameVideoCell c a b → w.1.read w.2 b = p.read c b)

variable (p : Ppu) (c : Cart) {a : Word} (b : Word) (v : Byte)

/-- What CHR RAM holds moves no window. -/
theorem chrCell_withChr (m : Memory) (x : Word) : chrCell { c with chr := m } x = chrCell c x := rfl

theorem Ppu.write_pattern_readsBack (h : a &&& 0x3FFF ≤ 0x1FFF) : ReadsBack p c a b v (p.write c a v) := by
  unfold ReadsBack
  rw [sameVideoCell_of_pattern c b h]
  by_cases ram : c.chrBanks = 0
  · rw [p.write_pattern_ram ram h]
    by_cases hb : b &&& 0x3FFF ≤ 0x1FFF
    · have hp : ¬ 0x3F00 ≤ b &&& 0x3FFF := by bv_omega
      rw [p.read_pattern _ hb, p.read_pattern _ hb, chrCell_withChr, Memory.read_write, readBack, if_neg hp]
      exact ⟨fun same => if_pos same.2.2, fun other => if_neg fun e => other ⟨hb, ram, e⟩⟩
    · refine ⟨fun same => absurd same.1 hb, fun _ => ?_⟩
      simp only [Ppu.read, hb, if_false]
      rfl
  · rw [p.write_pattern_rom ram h]
    exact ⟨fun same => absurd same.2.1 ram, fun _ => rfl⟩

theorem Ppu.write_nametable_readsBack (lo : 0x2000 ≤ a &&& 0x3FFF) (hi : a &&& 0x3FFF ≤ 0x3EFF) :
    ReadsBack p c a b v (p.write c a v) := by
  unfold ReadsBack
  rw [sameVideoCell_of_nametable c b lo hi, p.write_nametable c lo hi]
  by_cases hb : 0x2000 ≤ b &&& 0x3FFF ∧ b &&& 0x3FFF ≤ 0x3EFF
  · have hp : ¬ 0x3F00 ≤ b &&& 0x3FFF := by bv_omega
    simp only [Ppu.read_nametable _ _ hb.1 hb.2, Memory.read_write, hb, true_and, readBack, hp, if_false]
    exact ⟨fun same => if_pos same, fun other => if_neg other⟩
  · refine ⟨fun same => absurd ⟨same.1, same.2.1⟩ hb, fun _ => ?_⟩
    obtain hpat | hnam | hpal := videoRegion (b &&& 0x3FFF)
    · rw [Ppu.read_pattern _ _ hpat, Ppu.read_pattern _ _ hpat]
    · exact absurd hnam hb
    · rw [Ppu.read_palette _ _ hpal, Ppu.read_palette _ _ hpal]

theorem Ppu.write_palette_readsBack (h : 0x3F00 ≤ a &&& 0x3FFF) : ReadsBack p c a b v (p.write c a v) := by
  unfold ReadsBack
  rw [sameVideoCell_of_palette c b h, p.write_palette c h]
  by_cases hb : 0x3F00 ≤ b &&& 0x3FFF
  · simp only [Ppu.read_palette _ _ hb, Memory.read_write, hb, true_and, readBack, if_true]
    exact ⟨fun same => by rw [if_pos same], fun other => by rw [if_neg other]⟩
  · refine ⟨fun same => absurd same.1 hb, fun _ => ?_⟩
    obtain hpat | ⟨lo, hi⟩ | hpal := videoRegion (b &&& 0x3FFF)
    · rw [Ppu.read_pattern _ _ hpat, Ppu.read_pattern _ _ hpat]
    · rw [Ppu.read_nametable _ _ lo hi, Ppu.read_nametable _ _ lo hi]
    · exact absurd hpal hb

end Sys2Proof.Machine

namespace Sys2Proof.Claims

open Sys2Proof.Machine

/-- Settles O49: region by region; the nametable's index by `nametableIndex_eq`; the mirroring mapper by mapper. -/
theorem ppuBusReadsBackItsWrites : Obligations.PpuBusReadsBackItsWrites := by
  refine ⟨fun p c a b v => ?_, fun p c a lo hi => ?_, fun c => ?_⟩
  · obtain hpat | ⟨lo, hi⟩ | hpal := videoRegion (a &&& 0x3FFF)
    · exact p.write_pattern_readsBack c b v hpat
    · exact p.write_nametable_readsBack c b v lo hi
    · exact p.write_palette_readsBack c b v hpal
  · have ha : a &&& 0x3FFF = a := and_0x3FFF_of_le (by bv_omega)
    rw [p.read_nametable c (by rwa [ha]) (by rwa [ha]), ha, nametableIndex_eq]
  · cases hm : c.mapper with
    | m0 => simp only [Cart.mirrorMode, Mapper.mirrorMode, hm]
    | m1 r =>
      have hmode : (field r.control 0 2).toNat = r.control.toNat % 4 := by rw [toNat_field]; omega
      simp only [Cart.mirrorMode, Mapper.mirrorMode, hm, hmode]
      obtain mode | mode | mode | mode : r.control.toNat % 4 = 0 ∨ r.control.toNat % 4 = 1 ∨ r.control.toNat % 4 = 2 ∨
          r.control.toNat % 4 = 3 := by omega
      all_goals simp only [mode]
    | m2 r => simp only [Cart.mirrorMode, Mapper.mirrorMode, hm]
    | m4 r => exact Cart.mirrorMode_m4 hm

end Sys2Proof.Claims

/-! 62_ppu R403 to R406: the parts of a dot, and the counters. -/

namespace Sys2Proof.Machine

open Sys2Proof.Claims

/-! ## A dot and its line phase -/

/-- After the line phase a dot writes the flags, the NMI latch, the pixel and the counters only (62_ppu R404). -/
theorem ppuTick_frame (p : Ppu) (c : Cart) :
    (ppuTick p c).1 =
      { p.linePhase c with
        status := (p.dot c).status
        nmiLatch := (p.dot c).nmiLatch
        zeroDrawing := (p.dot c).zeroDrawing
        framebuffer := (p.dot c).framebuffer
        cycle := (ppuTick p c).1.cycle
        scanline := (ppuTick p c).1.scanline
        frameComplete := (ppuTick p c).1.frameComplete
        oddFrame := (ppuTick p c).1.oddFrame } := by
  have hdot : p.dot c =
      { p.linePhase c with
        status := (p.dot c).status
        nmiLatch := (p.dot c).nmiLatch
        zeroDrawing := (p.dot c).zeroDrawing
        framebuffer := (p.dot c).framebuffer } := by
    unfold Ppu.dot Ppu.pixelPhase Ppu.vblankPhase
    split <;> split <;> rfl
  rw [ppuTick]
  dsimp only
  rw [Ppu.advance_frame, hdot]

theorem ppuTick_status (p : Ppu) (c : Cart) : (ppuTick p c).1.status = (p.dot c).status := by rw [ppuTick_frame]

/-- The dot counter in a dot, after the odd-frame skip. -/
theorem Ppu.linePhase_cycle_eq (p : Ppu) (c : Cart) [Decidable (SkipsDot p)] :
    (p.linePhase c).cycle = if SkipsDot p then 1 else p.cycle := by
  rw [Ppu.linePhase_cycle, Ppu.skipDot_cycle]
  exact ite_congr rfl (fun _ => rfl) fun _ => rfl

theorem Ppu.skipDot_of_not {p : Ppu} (h : ¬ SkipsDot p) : p.skipDot = p := if_neg h

theorem Ppu.dot_counters (p : Ppu) (c : Cart) [Decidable (SkipsDot p)] :
    (p.dot c).scanline = p.scanline ∧ (p.dot c).cycle = if SkipsDot p then 1 else p.cycle := by
  refine ⟨(Ppu.dot_keeps p c).scanline, ?_⟩
  rw [Ppu.dot_cycle, Ppu.skipDot_cycle]
  exact ite_congr rfl (fun _ => rfl) fun _ => rfl

/-! ## The counters (R403) -/

theorem Ppu.advance_position {p : Ppu} (h : Ppu.CountersInRange p) :
    dotPosition p.advance = (dotPosition p + 1) % (262 * 341) := by
  obtain ⟨h1, h2, h3⟩ := h
  unfold Ppu.advance dotPosition
  split
  · split <;> dsimp only <;> omega
  · dsimp only; omega

/-- The end of the last dot ends the frame. -/
theorem Ppu.advance_ends {p : Ppu} (hs : p.scanline = 260) (hc : p.cycle = 340) :
    p.advance = { p with cycle := 0, scanline := -1, frameComplete := true, oddFrame := !p.oddFrame } := by
  rw [Ppu.advance, if_pos (by omega), if_pos (by omega)]

/-- No other dot touches the frame's flags. -/
theorem Ppu.advance_not_ends {p : Ppu} (h : Ppu.CountersInRange p) (ends : ¬ (p.scanline = 260 ∧ p.cycle = 340)) :
    p.advance.frameComplete = p.frameComplete ∧ p.advance.oddFrame = p.oddFrame := by
  obtain ⟨h1, h2, h3⟩ := h
  unfold Ppu.advance
  split
  · rw [if_neg (by omega)]; exact ⟨rfl, rfl⟩
  · exact ⟨rfl, rfl⟩

/-- Settles O50: the counters advance from those of the dot, which are the tick's but for the skip. -/
theorem dotCountersRunTheFrame : Obligations.DotCountersRunTheFrame := by
  intro p c range q ends
  obtain ⟨h1, h2, h3⟩ := range
  have kept := Ppu.dot_keeps p c
  classical
  obtain ⟨hscan, hcycle⟩ := Ppu.dot_counters p c
  have hdot : Ppu.CountersInRange (p.dot c) := ⟨by omega, by omega, by rw [hcycle]; split <;> omega⟩
  have hends : ((p.dot c).scanline = 260 ∧ (p.dot c).cycle = 340) ↔ ends := by
    rw [hscan, hcycle]
    split
    · rename_i skip
      obtain ⟨s0, -⟩ := skip
      simp only [ends]
      omega
    · rfl
  have position : dotPosition q = (((p.scanline + 1).toNat * 341 + (p.dot c).cycle) + 1) % (262 * 341) := by
    rw [← hscan]; exact Ppu.advance_position hdot
  refine ⟨ppuTick_range h1 h2 h3, fun h => ?_, fun h => ?_, fun h => ?_, fun h => ?_⟩
  · rw [position, hcycle, if_neg h]; rfl
  · obtain ⟨s0, c0, -⟩ := id h
    rw [position, hcycle, if_pos h, dotPosition, s0, c0]
    rfl
  · have e : q = _ := Ppu.advance_ends (hends.mpr h).1 (hends.mpr h).2
    rw [e]
    exact ⟨rfl, by rw [kept.oddFrame]⟩
  · obtain ⟨complete, odd⟩ := Ppu.advance_not_ends hdot fun e => h (hends.mp e)
    exact ⟨complete.trans kept.frameComplete, odd.trans kept.oddFrame⟩

end Sys2Proof.Machine

/-! 62_ppu R416 to R418: the sprite pipeline. The loop of R416 is a filter: the first eight matches of OAM fill the cache. -/

namespace Sys2Proof.Machine

open Sys2Proof.Claims

/-! ## The evaluation loop (R416) -/

/-- The loop's variables when the entries `hits` have matched so far, in their order. -/
def loopAfter (p : Ppu) (hits : List Nat) : EvalLoop where
  sprites := (hits.take 8).map p.oamEntry ++ List.replicate (8 - (hits.take 8).length) ⟨0xFF, 0xFF, 0xFF, 0xFF, 0, 0⟩
  count := (hits.take 8).length
  matched := hits.length
  zero := decide (0 ∈ hits.take 8)

/-- Replacing the first filler by one more entry. -/
theorem set_append_replicate {α : Type} (l : List α) (k : Nat) (x a : α) :
    (l ++ List.replicate (k + 1) x).set l.length a = (l ++ [a]) ++ List.replicate k x := by
  simp [List.replicate_succ]

/-- A turn through the model's own reading of OAM. -/
theorem turn_eq (p : Ppu) (l : EvalLoop) (n : Nat) :
    EvalLoop.turn p l n =
      if p.spriteInRange n then
        if l.count < 8 then
          ⟨l.sprites.set l.count (p.oamEntry n), l.count + 1, l.matched + 1, if n = 0 then true else l.zero⟩
        else { l with matched := l.matched + 1 }
      else l := by
  simp only [Ppu.spriteInRange, decide_eq_true_eq]
  rfl

/-- A turn on an entry that matches counts it, and takes it into the cache while there is room. -/
theorem turn_of_inRange {p : Ppu} {n : Nat} (h : p.spriteInRange n = true) (hits : List Nat) :
    EvalLoop.turn p (loopAfter p hits) n = loopAfter p (hits ++ [n]) := by
  rw [turn_eq, if_pos h]
  by_cases room : hits.length < 8
  · have htake : hits.take 8 = hits := List.take_of_length_le (by omega)
    have htake' : (hits ++ [n]).take 8 = hits ++ [n] := List.take_of_length_le (by simp; omega)
    have hfill : 8 - hits.length = 8 - (hits.length + 1) + 1 := by omega
    have hset := set_append_replicate (hits.map p.oamEntry) (8 - (hits.length + 1)) ⟨0xFF, 0xFF, 0xFF, 0xFF, 0, 0⟩
      (p.oamEntry n)
    have hzero : (if n = 0 then true else decide (0 ∈ hits)) = decide (0 ∈ hits ++ [n]) := by
      by_cases h0 : n = 0
      · simp [h0]
      · simp [h0, Ne.symm h0]
    rw [List.length_map, ← hfill] at hset
    simp only [loopAfter, htake, htake', if_pos room, List.length_append, List.length_singleton, List.map_append,
      List.map_singleton, hset, hzero]
  · have hle : 8 ≤ hits.length := by omega
    have htake : (hits ++ [n]).take 8 = hits.take 8 := List.take_append_of_le_length hle
    have hfull : ¬ (hits.take 8).length < 8 := by simp [hle]
    simp only [loopAfter, htake, hfull, if_false, List.length_append, List.length_singleton]

/-- The loop over any entries collects those that match. -/
theorem foldl_turn (p : Ppu) (entries hits : List Nat) :
    entries.foldl (EvalLoop.turn p) (loopAfter p hits) = loopAfter p (hits ++ entries.filter p.spriteInRange) := by
  induction entries generalizing hits with
  | nil => simp
  | cons n entries ih =>
    cases h : p.spriteInRange n with
    | true => simp only [List.foldl_cons, turn_of_inRange h, ih, List.filter_cons, h, if_true, List.append_assoc,
        List.singleton_append]
    | false =>
      have hturn : EvalLoop.turn p (loopAfter p hits) n = loopAfter p hits := by rw [turn_eq, h]; rfl
      simp only [List.foldl_cons, hturn, ih, List.filter_cons, h, Bool.false_eq_true, if_false]

/-- The entries of OAM that the evaluation matches. -/
def spriteHits (p : Ppu) : List Nat := (List.range 64).filter p.spriteInRange

theorem evalLoop_eq (p : Ppu) : evalLoop p = loopAfter p (spriteHits p) := foldl_turn p (List.range 64) []

/-- Entry 0 is the first examined, so it is in the cache when it matches. -/
theorem evalLoop_zero (p : Ppu) : (evalLoop p).zero = p.spriteInRange 0 := by
  have hrange : List.range 64 = 0 :: (List.range 63).map Nat.succ := List.range_succ_eq_map
  rw [evalLoop_eq]
  change decide (0 ∈ (spriteHits p).take 8) = _
  cases h : p.spriteInRange 0 with
  | true => simp [spriteHits, hrange, h]
  | false =>
    have hnot : 0 ∉ spriteHits p := by simp [spriteHits, h]
    exact decide_eq_false fun hmem => hnot (List.mem_of_mem_take hmem)

/-- The evaluation is the loop of R416. -/
theorem Ppu.spriteEvaluate_eq (p : Ppu) :
    p.spriteEvaluate =
      { p with
        sprites := (evalLoop p).sprites
        spriteCount := (evalLoop p).count
        zeroHitPossible := (evalLoop p).zero
        status := if 8 < (evalLoop p).matched then p.status ||| 0x20 else p.status } := by
  rw [evalLoop_zero, evalLoop_eq]
  rfl

/-- The loop reads OAM, the sprite size and the scanline alone. -/
theorem evalLoop_congr {p q : Ppu} (oam : q.oam = p.oam) (ctrl : q.ctrl = p.ctrl) (scanline : q.scanline = p.scanline) :
    evalLoop q = evalLoop p := by
  have hturn : EvalLoop.turn q = EvalLoop.turn p := by
    funext l n
    simp only [EvalLoop.turn, oam, ctrl, scanline]
  rw [evalLoop, evalLoop, hturn]

/-! ## The cache across a dot -/

@[simp] theorem getElem?_mapFirst {α : Type} (f : α → α) (n : Nat) (l : List α) (i : Nat) :
    (mapFirst f n l)[i]? = if i < n then l[i]?.map f else l[i]? := by
  induction n, l using mapFirst.induct generalizing i with
  | case1 l => simp [mapFirst]
  | case2 n => simp [mapFirst]
  | case3 n a l ih => cases i <;> simp [mapFirst, ih]

/-- The parts of a fetched scanline's dot before the sprite phase (62_ppu R404). -/
def Ppu.beforeSprites (p : Ppu) (c : Cart) : Ppu := ((p.skipDot.clearPhase).fetchPhase c).addressPhase c

theorem Ppu.linePhase_of_line {p : Ppu} (c : Cart) (h : OnFetchLine p) :
    p.linePhase c = (p.beforeSprites c).spritePhase c := if_pos h

theorem Ppu.linePhase_of_not_line {p : Ppu} (c : Cart) (h : ¬ OnFetchLine p) : p.linePhase c = p := if_neg h

theorem Ppu.beforeSprites_keeps (p : Ppu) (c : Cart) : Ppu.LineKeeps p (p.beforeSprites c) :=
  (((Ppu.skipDot_keeps p).trans (Ppu.clearPhase_keeps _)).trans (Ppu.fetchPhase_keeps _ c)).trans
    (Ppu.addressPhase_keeps _ c)

theorem Ppu.clearPhase_cycle (p : Ppu) : p.clearPhase.cycle = p.cycle := by unfold Ppu.clearPhase; split <;> rfl

theorem Ppu.beforeSprites_cycle (p : Ppu) (c : Cart) : (p.beforeSprites c).cycle = p.skipDot.cycle := by
  rw [Ppu.beforeSprites, Ppu.addressPhase_cycle, Ppu.fetchPhase_cycle, Ppu.clearPhase_cycle]

theorem Ppu.fetchPhase_zeroHitPossible (p : Ppu) (c : Cart) :
    (p.fetchPhase c).zeroHitPossible = p.zeroHitPossible := by
  unfold Ppu.fetchPhase Ppu.fetchSlot Ppu.scrollX Ppu.shiftSprites Ppu.shiftBackground
  repeat' split
  all_goals rfl

theorem Ppu.addressPhase_zeroHitPossible (p : Ppu) (c : Cart) :
    (p.addressPhase c).zeroHitPossible = p.zeroHitPossible := by
  unfold Ppu.addressPhase Ppu.scrollY Ppu.transferX Ppu.transferY
  repeat' split
  all_goals rfl

theorem Ppu.beforeSprites_zeroHitPossible (p : Ppu) (c : Cart) :
    (p.beforeSprites c).zeroHitPossible = p.zeroHitPossible := by
  rw [Ppu.beforeSprites, Ppu.addressPhase_zeroHitPossible, Ppu.fetchPhase_zeroHitPossible, Ppu.clearPhase,
    Ppu.skipDot]
  repeat' split
  all_goals rfl

/-- The dot of the clear (62_ppu R425). -/
theorem Ppu.clearPhase_of_not {p : Ppu} (h : ¬ (p.scanline = -1 ∧ p.cycle = 1)) : p.clearPhase = p := if_neg h

/-- Nothing is skipped and nothing is cleared at once. -/
theorem Ppu.skipDot_clearPhase_of_not {p : Ppu} (h : ¬ (p.scanline = -1 ∧ p.cycle = 1)) :
    p.skipDot.clearPhase = p.skipDot := by
  by_cases skip : SkipsDot p
  · refine Ppu.clearPhase_of_not fun e => ?_
    have hs : p.scanline = -1 := (Ppu.skipDot_keeps p).scanline.symm.trans e.1
    obtain ⟨s0, -⟩ := skip
    omega
  · rw [Ppu.skipDot_of_not skip, Ppu.clearPhase_of_not h]

/-- `UpdateShifters` on the cache (62_ppu R417). -/
theorem Ppu.shift_sprites (p : Ppu) :
    p.shiftBackground.shiftSprites.spriteCount = p.spriteCount ∧
      p.shiftBackground.shiftSprites.sprites =
        if p.mask.getLsbD 4 = true ∧ p.cycle ≤ 257 then mapFirst SpriteUnit.step p.spriteCount p.sprites
        else p.sprites := by
  have hb : p.shiftBackground =
      { p.shiftBackground with
        mask := p.mask, cycle := p.cycle, sprites := p.sprites, spriteCount := p.spriteCount } := by
    unfold Ppu.shiftBackground; split <;> rfl
  rw [hb]
  unfold Ppu.shiftSprites Ppu.showSprites
  split <;> exact ⟨rfl, rfl⟩

/-- The shift of the units in use, in the window's dots (62_ppu R417). -/
theorem Ppu.fetchPhase_sprites (p : Ppu) (c : Cart) :
    (p.fetchPhase c).spriteCount = p.spriteCount ∧
      (p.fetchPhase c).sprites =
        if p.mask.getLsbD 4 = true ∧ 2 ≤ p.cycle ∧ p.cycle ≤ 257 then mapFirst SpriteUnit.step p.spriteCount p.sprites
        else p.sprites := by
  have hslot := p.shiftBackground.shiftSprites.fetchSlot_sprites c
  obtain ⟨hcount, hshift⟩ := p.shift_sprites
  unfold Ppu.fetchPhase
  split
  · rename_i window
    rw [hslot.sprites, hslot.spriteCount, hcount, hshift]
    exact ⟨rfl, ite_congr (propext ⟨fun ⟨m, h⟩ => ⟨m, by omega, h⟩, fun ⟨m, _, h⟩ => ⟨m, h⟩⟩) (fun _ => rfl)
      fun _ => rfl⟩
  · rename_i outside
    exact ⟨rfl, (if_neg fun ⟨_, h2, h257⟩ => outside (.inl ⟨h2, h257⟩)).symm⟩

/-- The cache before the sprite phase: shifted in its window, else kept, unless the dot clears it. -/
theorem Ppu.beforeSprites_sprites {p : Ppu} (c : Cart) (line : OnFetchLine p)
    (clear : ¬ (p.scanline = -1 ∧ p.cycle = 1)) [Decidable (ShiftsSprites p)] :
    (p.beforeSprites c).spriteCount = p.spriteCount ∧
      (p.beforeSprites c).sprites =
        if ShiftsSprites p then mapFirst SpriteUnit.step p.spriteCount p.sprites else p.sprites := by
  have ha := Ppu.addressPhase_sprites (p.skipDot.clearPhase.fetchPhase c) c
  have hskip := p.skipDot_sprites
  have hf := Ppu.fetchPhase_sprites p.skipDot c
  rw [Ppu.beforeSprites, ha.sprites, ha.spriteCount, Ppu.skipDot_clearPhase_of_not clear, hf.1, hf.2, hskip.sprites,
    hskip.spriteCount]
  refine ⟨rfl, ?_⟩
  have hiff : (p.skipDot.mask.getLsbD 4 = true ∧ 2 ≤ p.skipDot.cycle ∧ p.skipDot.cycle ≤ 257) ↔ ShiftsSprites p := by
    rw [(Ppu.skipDot_keeps p).mask]
    by_cases skip : SkipsDot p
    · have hcycle : p.skipDot.cycle = 1 := by rw [Ppu.skipDot_cycle]; exact if_pos skip
      obtain ⟨-, c0, -⟩ := skip
      rw [hcycle]
      exact ⟨fun h => by omega, fun h => by have := h.2.2.1; omega⟩
    · rw [Ppu.skipDot_of_not skip]
      exact ⟨fun h => ⟨line, h⟩, fun h => h.2⟩
  exact ite_congr (propext hiff) (fun _ => rfl) fun _ => rfl

/-! ## Shifting and fetching a unit (R417, R418) -/

theorem SpriteUnit.step_eq (u : SpriteUnit) : u.step = unitShifted u := by
  have hshift (b : Byte) : b <<< 1 = BitVec.ofNat 8 (2 * b.toNat) := by
    apply BitVec.eq_of_toNat_eq
    rw [toNat_shiftLeft_one, BitVec.toNat_ofNat]
  unfold SpriteUnit.step unitShifted
  by_cases h : u.x = 0
  · rw [if_neg (by rw [h]; decide), if_pos h, hshift, hshift]
  · rw [if_pos (by bv_omega), if_neg h]

theorem Ppu.spriteHeight_eq (p : Ppu) : p.spriteHeight = spriteLines p := by
  unfold Ppu.spriteHeight spriteLines Ppu.spriteSize; split <;> rfl

/-- The row of a unit that the scanline meets, a row 0 to h - 1. -/
theorem Ppu.spriteRow_eq {p : Ppu} {u : SpriteUnit} (lo : (u.y.toNat : Int) ≤ p.scanline)
    (hi : p.scanline < u.y.toNat + spriteLines p) :
    ∃ r < spriteLines p, p.spriteRow u = BitVec.ofNat 16 r ∧
      r = if u.attributes.getLsbD 7 then spriteLines p - 1 - (p.scanline.toNat - u.y.toNat)
        else p.scanline.toNat - u.y.toNat := by
  refine ⟨_, ?_, ?_, rfl⟩
  · split <;> omega
  · have hr : (if u.attributes.getLsbD 7 then p.spriteHeight - 1 - (p.scanline - u.y.toNat) else p.scanline - u.y.toNat) =
        ((if u.attributes.getLsbD 7 then spriteLines p - 1 - (p.scanline.toNat - u.y.toNat)
          else p.scanline.toNat - u.y.toNat : Nat) : Int) := by
      rw [Ppu.spriteHeight_eq]
      split <;> omega
    simp only [Ppu.spriteRow, hr]
    rw [if_pos (Int.natCast_nonneg _), BitVec.ofInt_natCast]

/-- A bit of an address that is set or not. -/
theorem toNat_natCast_ite (b : Bool) {n : Nat} (hn : n < 2 ^ 16) :
    (((if b then n else 0 : Nat) : Word)).toNat = if b then n else 0 := by
  rw [BitVec.natCast_eq_ofNat, BitVec.toNat_ofNat]
  split <;> omega

/-- The pattern row of a sprite of 16 lines: its table by bit 0 of the id, two tiles of 8 rows. -/
theorem toNat_patternAddr16 (id : Byte) {r : Nat} (hr : r < 16) :
    (((if id.getLsbD 0 then 0x1000 else 0 : Nat) : Word) ||| ((zext (id &&& 0xFE) + (BitVec.ofNat 16 r >>> 3)) <<< 4) |||
      (BitVec.ofNat 16 r &&& 7)).toNat = id.toNat % 2 * 0x1000 + (id.toNat / 2 * 2 + r / 8) * 16 + r % 8 := by
  have hid := id.isLt
  have heven : (id &&& 0xFE).toNat = id.toNat / 2 * 2 := by revert id; decide
  have htable : ((if id.getLsbD 0 then 0x1000 else 0 : Nat) : Word).toNat = id.toNat % 2 * 0x1000 := by
    have hbit := ite_getLsbD_eq id 0
    rw [pow_zero, Nat.div_one] at hbit
    rw [toNat_natCast_ite _ (by decide), ← hbit]
    split <;> rfl
  have htile : ((zext (id &&& 0xFE) + (BitVec.ofNat 16 r >>> 3)) <<< 4 : Word).toNat =
      (id.toNat / 2 * 2 + r / 8) * 16 := by
    simp only [BitVec.toNat_shiftLeft, BitVec.toNat_add, zext_toNat, heven, BitVec.toNat_ushiftRight,
      BitVec.toNat_ofNat, Nat.shiftRight_eq_div_pow, Nat.shiftLeft_eq]
    omega
  have hrow : (BitVec.ofNat 16 r &&& 7 : Word).toNat = r % 8 := by
    rw [toNat_and_mask _ _ 3 rfl, BitVec.toNat_ofNat]; omega
  have hbase := toNat_or_of_lt 12 (x := ((if id.getLsbD 0 then 0x1000 else 0 : Nat) : Word)) (by rw [htable]; omega)
    (show ((zext (id &&& 0xFE) + (BitVec.ofNat 16 r >>> 3)) <<< 4 : Word).toNat < 2 ^ 12 by omega)
  rw [toNat_or_of_lt 4 (by omega) (by omega), hbase, htable, htile, hrow]

/-- The pattern row of a sprite of 8 lines. -/
theorem toNat_patternAddr8 (table : Bool) (id : Byte) {r : Nat} (hr : r < 8) :
    (((if table then 0x1000 else 0 : Nat) : Word) ||| (zext id <<< 4) ||| BitVec.ofNat 16 r).toNat =
      (if table then 0x1000 else 0) + id.toNat * 16 + r := by
  have hid := id.isLt
  have htable := toNat_natCast_ite table (n := 0x1000) (by decide)
  have htile : (zext id <<< 4 : Word).toNat = id.toNat * 16 := by
    rw [BitVec.toNat_shiftLeft, zext_toNat, Nat.shiftLeft_eq]; omega
  have hrow : (BitVec.ofNat 16 r).toNat = r := by rw [BitVec.toNat_ofNat]; omega
  have hbase := toNat_or_of_lt 12 (x := ((if table then 0x1000 else 0 : Nat) : Word)) (y := zext id <<< 4)
    (by rw [htable]; cases table <;> rfl) (by omega)
  rw [htable, htile] at hbase
  rw [toNat_or_of_lt 4 (by rw [hbase]; split <;> omega) (by omega), hbase, hrow]

theorem Ppu.spriteAddr_eq {p : Ppu} {u : SpriteUnit} (lo : (u.y.toNat : Int) ≤ p.scanline)
    (hi : p.scanline < u.y.toNat + spriteLines p) :
    p.spriteAddr u = BitVec.ofNat 16 (spriteRowAddress p u) := by
  obtain ⟨r, hr, hrow, hval⟩ := Ppu.spriteRow_eq lo hi
  have hid := u.id.isLt
  apply BitVec.eq_of_toNat_eq
  by_cases size : p.ctrl.getLsbD 5 = true
  · rw [spriteLines, if_pos size] at hr
    have haddr : p.spriteAddr u = _ := if_pos size
    rw [haddr, hrow, toNat_patternAddr16 _ hr, BitVec.toNat_ofNat, spriteRowAddress, if_pos size, ← hval]
    omega
  · rw [spriteLines, if_neg size] at hr
    have haddr : p.spriteAddr u = _ := if_neg size
    rw [haddr, hrow, toNat_patternAddr8 _ _ hr, BitVec.toNat_ofNat, spriteRowAddress, if_neg size, ← hval]
    have htable : (if p.spritePatternTable then 0x1000 else 0) = if p.ctrl.getLsbD 3 then 0x1000 else 0 := rfl
    rw [htable]
    split <;> omega

theorem getLsbD_bitReverse8 (b : Byte) {k : Nat} (hk : k < 8) : (bitReverse8 b).getLsbD k = b.getLsbD (7 - k) := by
  rw [bitReverse8, BitVec.getLsbD_reverse, BitVec.getMsbD, decide_eq_true hk, Bool.true_and]

/-- A fetched unit has the two bytes of its row, mirrored when its flip bit is set (62_ppu R418). -/
theorem Ppu.fetchSprite_unitFetched {p : Ppu} {u : SpriteUnit} (c : Cart) (lo : (u.y.toNat : Int) ≤ p.scanline)
    (hi : p.scanline < u.y.toNat + spriteLines p) : UnitFetched p c u (p.fetchSprite c u) := by
  have haddr := Ppu.spriteAddr_eq lo hi
  have haddr8 : p.spriteAddr u + 8 = BitVec.ofNat 16 (spriteRowAddress p u + 8) := by rw [haddr, BitVec.ofNat_add]; rfl
  unfold UnitFetched Ppu.fetchSprite
  rw [← haddr8, ← haddr]
  cases flip : u.attributes.getLsbD 6 with
  | true =>
    exact ⟨rfl, fun k hk => ⟨getLsbD_bitReverse8 _ hk, getLsbD_bitReverse8 _ hk⟩⟩
  | false => exact ⟨rfl, fun k hk => ⟨rfl, rfl⟩⟩

theorem spriteLines_congr {p q : Ppu} (ctrl : q.ctrl = p.ctrl) : spriteLines q = spriteLines p := by
  rw [spriteLines, spriteLines, ctrl]

/-- What is fetched depends on PPUCTRL, the scanline and the PPU bus. -/
theorem unitFetched_of_keeps {p q : Ppu} {c : Cart} {u w : SpriteUnit} (h : UnitFetched q c u w)
    (k : Ppu.DotKeeps p q) : UnitFetched p c u w := by
  have haddr : spriteRowAddress q u = spriteRowAddress p u := by
    simp only [spriteRowAddress, spriteLines_congr k.ctrl, k.ctrl, k.scanline]
  simpa only [UnitFetched, haddr, k.read] using h

end Sys2Proof.Machine

namespace Sys2Proof.Claims

open Sys2Proof.Machine

/-- The cache in the dot of the evaluation. -/
theorem evaluated_cache {p : Ppu} (c : Cart) (h : EvaluatesSprites p) :
    (ppuTick p c).1.sprites = (evalLoop p).sprites ∧ (ppuTick p c).1.spriteCount = (evalLoop p).count ∧
      (ppuTick p c).1.zeroHitPossible = (evalLoop p).zero := by
  obtain ⟨lo, hi, hc⟩ := h
  have kept := p.beforeSprites_keeps c
  have hskip : ¬ SkipsDot p := fun s => by have := s.2.1; omega
  have hdot : (p.beforeSprites c).spritePhase c = (p.beforeSprites c).spriteEvaluate := by
    refine if_pos ⟨by rw [kept.scanline]; exact lo, ?_⟩
    rw [Ppu.beforeSprites_cycle, Ppu.skipDot_of_not hskip, hc]
  rw [ppuTick_frame, Ppu.linePhase_of_line c ⟨by omega, hi⟩, hdot, Ppu.spriteEvaluate_eq,
    evalLoop_congr kept.oam kept.ctrl kept.scanline]
  exact ⟨rfl, rfl, rfl⟩

/-- The cache in a dot that does not evaluate: that before the sprite phase, or fetched from there. -/
theorem fetched_cache {p : Ppu} (c : Cart) (line : OnFetchLine p) (evaluates : ¬ EvaluatesSprites p)
    [Decidable (FetchesSprites p)] :
    (ppuTick p c).1.spriteCount = (p.beforeSprites c).spriteCount ∧
      (ppuTick p c).1.zeroHitPossible = p.zeroHitPossible ∧
      (ppuTick p c).1.sprites =
        if FetchesSprites p then
          mapFirst ((p.beforeSprites c).fetchSprite c) (p.beforeSprites c).spriteCount (p.beforeSprites c).sprites
        else (p.beforeSprites c).sprites := by
  have hscan := (p.beforeSprites_keeps c).scanline
  have hzero := p.beforeSprites_zeroHitPossible c
  have hcycle (n : Nat) (hn : 2 ≤ n) : (p.beforeSprites c).cycle = n ↔ p.cycle = n := by
    rw [Ppu.beforeSprites_cycle, Ppu.skipDot_cycle]
    split <;> omega
  have hno : ¬ (0 ≤ (p.beforeSprites c).scanline ∧ (p.beforeSprites c).cycle = 257) := by
    rw [hscan, hcycle 257 (by decide)]
    exact fun h => evaluates ⟨h.1, line.2, h.2⟩
  have hfetch : (0 ≤ (p.beforeSprites c).scanline ∧ (p.beforeSprites c).cycle = 340) ↔ FetchesSprites p := by
    rw [hscan, hcycle 340 (by decide)]
    exact ⟨fun h => ⟨h.1, line.2, h.2⟩, fun h => ⟨h.1, h.2.2⟩⟩
  rw [ppuTick_frame, Ppu.linePhase_of_line c line, Ppu.spritePhase, if_neg hno]
  by_cases fetches : FetchesSprites p
  · rw [if_pos (hfetch.mpr fetches), if_pos fetches]
    exact ⟨rfl, hzero, rfl⟩
  · rw [if_neg (fetches ∘ hfetch.mp), if_neg fetches]
    exact ⟨rfl, hzero, rfl⟩

/-- Off the fetched scanlines the cache is kept. -/
theorem cache_of_not_line {p : Ppu} (c : Cart) (line : ¬ OnFetchLine p) :
    (ppuTick p c).1.spriteCount = p.spriteCount ∧ (ppuTick p c).1.zeroHitPossible = p.zeroHitPossible ∧
      (ppuTick p c).1.sprites = p.sprites := by
  rw [ppuTick_frame, Ppu.linePhase_of_not_line c line]
  exact ⟨rfl, rfl, rfl⟩

/-- Settles O53: the evaluation is the loop (`Ppu.spriteEvaluate_eq`); a dot's cache is that before the sprite phase
(`Ppu.beforeSprites_sprites`), evaluated or fetched in its dot. -/
theorem spriteEvaluationIsTheSpecsLoop : Obligations.SpriteEvaluationIsTheSpecsLoop := by
  refine ⟨Ppu.spriteEvaluate_eq, fun p c => ⟨evaluated_cache c, fun evaluates clear => ?_⟩⟩
  by_cases line : OnFetchLine p
  · classical
    obtain ⟨hcount, hzero, hsprites⟩ := fetched_cache c line evaluates
    obtain ⟨bcount, bsprites⟩ := Ppu.beforeSprites_sprites c line clear
    rw [bcount] at hcount hsprites
    rw [bsprites] at hsprites
    have exclusive (shifts : ShiftsSprites p) : ¬ FetchesSprites p := fun fetches => by
      have := shifts.2.2.2
      have := fetches.2.2
      omega
    refine ⟨hcount, hzero, by rw [hsprites]; split <;> split <;> simp, fun i u hu => ⟨fun shifts hi => ?_,
      fun fetches hi lo hi' => ?_, fun still => ?_⟩⟩
    · rw [hsprites, if_neg (exclusive shifts), if_pos shifts, getElem?_mapFirst, if_pos hi, hu, Option.map_some,
        SpriteUnit.step_eq]
    · have kept := p.beforeSprites_keeps c
      have hs : ¬ ShiftsSprites p := fun shifts => exclusive shifts fetches
      refine ⟨(p.beforeSprites c).fetchSprite c u, ?_, ?_⟩
      · rw [hsprites, if_pos fetches, if_neg hs, getElem?_mapFirst, if_pos hi, hu, Option.map_some]
      · refine unitFetched_of_keeps (Ppu.fetchSprite_unitFetched c ?_ ?_) kept.toDotKeeps
        · rw [kept.scanline]; exact lo
        · rw [kept.scanline, spriteLines_congr kept.ctrl]; exact hi'
    · rw [hsprites]
      obtain hi | ⟨hs, hf⟩ := still
      · have hi : ¬ i < p.spriteCount := by omega
        split <;> split <;> simp [hi, hu]
      · rw [if_neg hf, if_neg hs, hu]
  · obtain ⟨hcount, hzero, hsprites⟩ := cache_of_not_line c line
    rw [hsprites]
    refine ⟨hcount, hzero, rfl, fun i u hu => ⟨fun shifts => absurd shifts.1 line, fun fetches => ?_, fun _ => hu⟩⟩
    obtain ⟨lo, hi, -⟩ := fetches
    exact absurd ⟨by omega, hi⟩ line

end Sys2Proof.Claims

/-! 62_ppu R420 to R425: the pixel a dot composes, the status flags, and the framebuffer. -/

namespace Sys2Proof.Machine

open Sys2Proof.Claims

/-! ## The two candidate pixels (R420, R421) -/

theorem toNat_planeBits (hi lo : Bool) : (planeBits hi lo).toNat = 2 * hi.toNat + lo.toNat := by
  revert hi lo; decide

theorem toNat_getLsbD_word (w : Word) (k : Nat) : (w.getLsbD k).toNat = w.toNat / 2 ^ k % 2 := Nat.toNat_testBit _ _

/-- The background candidate of the model is that of R420. -/
theorem Ppu.bgPixel_eq (p : Ppu) : backgroundPixel p = (p.bgPixel.pixel.toNat, p.bgPixel.pal.toNat) := by
  by_cases shown : p.mask.getLsbD 3 = true ∧ (p.mask.getLsbD 1 = true ∨ 9 ≤ p.cycle)
  · have hmodel : p.bgPixel =
        ⟨planeBits (p.shiftPatternHi.getLsbD (15 - p.fineX.toNat)) (p.shiftPatternLo.getLsbD (15 - p.fineX.toNat)),
          (planeBits (p.shiftAttribHi.getLsbD (15 - p.fineX.toNat))
            (p.shiftAttribLo.getLsbD (15 - p.fineX.toNat))).setWidth 3, false, false⟩ := if_pos shown
    have hpal (b : BitVec 2) : (b.setWidth 3).toNat = b.toNat := BitVec.toNat_setWidth_of_le (by decide)
    rw [hmodel]
    dsimp only
    rw [hpal, toNat_planeBits, toNat_planeBits]
    simp only [toNat_getLsbD_word]
    exact if_pos shown
  · have hmodel : p.bgPixel = ⟨0, 0, false, false⟩ := if_neg shown
    rw [hmodel]
    exact if_neg shown

/-- Whether the scan of R421 stops at a unit: at x 0 with an opaque pixel. -/
def stopsScan (u : SpriteUnit) : Bool := decide (u.x = 0 ∧ unitPixel u ≠ 0)

theorem toNat_unitPixel (u : SpriteUnit) : (planeBits (u.shiftHi.getLsbD 7) (u.shiftLo.getLsbD 7)).toNat = unitPixel u := by
  rw [toNat_planeBits, toNat_getLsbD_seven, toNat_getLsbD_seven, unitPixel, mul_comm]

theorem unitPixel_eq_zero_iff (u : SpriteUnit) :
    planeBits (u.shiftHi.getLsbD 7) (u.shiftLo.getLsbD 7) = 0 ↔ unitPixel u = 0 := by
  rw [← toNat_unitPixel, BitVec.toNat_eq]; rfl

/-- The candidate that a unit gives. -/
def unitCandidate (first : Bool) (u : SpriteUnit) : Pixel :=
  ⟨planeBits (u.shiftHi.getLsbD 7) (u.shiftLo.getLsbD 7), (field u.attributes 0 2).setWidth 3 ||| 4,
    !u.attributes.getLsbD 5, first⟩

theorem scanSprites_of_stops {first : Bool} {u : SpriteUnit} (us : List SpriteUnit) (acc : Pixel)
    (h : stopsScan u = true) : scanSprites first (u :: us) acc = unitCandidate first u := by
  obtain ⟨hx, hp⟩ := of_decide_eq_true h
  have hopaque : planeBits (u.shiftHi.getLsbD 7) (u.shiftLo.getLsbD 7) ≠ 0 := (unitPixel_eq_zero_iff u).not.mpr hp
  rw [scanSprites, if_pos hx]
  exact if_pos hopaque

/-- A unit that does not stop the scan hands on a transparent candidate. -/
theorem scanSprites_of_not_stops {first : Bool} {u : SpriteUnit} (us : List SpriteUnit) {acc : Pixel}
    (h : stopsScan u = false) (pixel : acc.pixel = 0) (zero : acc.zero = false) :
    ∃ next : Pixel, scanSprites first (u :: us) acc = scanSprites false us next ∧ next.pixel = 0 ∧ next.zero = false := by
  have h := of_decide_eq_false h
  rw [scanSprites]
  by_cases hx : u.x = 0
  · have hclear : planeBits (u.shiftHi.getLsbD 7) (u.shiftLo.getLsbD 7) = 0 := by
      rw [unitPixel_eq_zero_iff]
      by_contra hp
      exact h ⟨hx, hp⟩
    rw [if_pos hx]
    exact ⟨unitCandidate false u, if_neg (not_not.mpr hclear), hclear, rfl⟩
  · exact ⟨acc, if_neg hx, pixel, zero⟩

/-- The scan without a unit that stops it leaves a transparent pixel. -/
theorem scanSprites_of_find_none {l : List SpriteUnit} (first : Bool) {acc : Pixel} (h : l.find? stopsScan = none)
    (pixel : acc.pixel = 0) (zero : acc.zero = false) :
    (scanSprites first l acc).pixel = 0 ∧ (scanSprites first l acc).zero = false := by
  induction l generalizing first acc with
  | nil => exact ⟨pixel, zero⟩
  | cons u us ih =>
    rw [List.find?_eq_none] at h
    obtain ⟨hu, hus⟩ := List.forall_mem_cons.mp h
    obtain ⟨next, heq, hpixel, hzero⟩ := scanSprites_of_not_stops (first := first) us (by simpa using hu) pixel zero
    rw [heq]
    exact ih false (List.find?_eq_none.mpr hus) hpixel hzero

/-- The scan gives the candidate of the first unit that stops it, marked when that is unit 0. -/
theorem scanSprites_of_find_some {l : List SpriteUnit} (first : Bool) {acc : Pixel} {u : SpriteUnit}
    (h : l.find? stopsScan = some u) (pixel : acc.pixel = 0) (zero : acc.zero = false) :
    scanSprites first l acc = unitCandidate (first && l.head?.any stopsScan) u := by
  induction l generalizing first acc with
  | nil => simp at h
  | cons w us ih =>
    cases hw : stopsScan w with
    | true =>
      rw [List.find?_cons_of_pos hw] at h
      cases h
      rw [scanSprites_of_stops us acc hw, List.head?_cons, Option.any_some, hw, Bool.and_true]
    | false =>
      rw [List.find?_cons_of_neg (by simp [hw])] at h
      obtain ⟨next, heq, hpixel, hzero⟩ := scanSprites_of_not_stops (first := first) us hw pixel zero
      rw [heq, ih false h hpixel hzero, List.head?_cons, Option.any_some, hw, Bool.and_false, Bool.false_and]

/-- The dots in which a sprite pixel may show. -/
def SpritesShown (p : Ppu) : Prop := p.mask.getLsbD 4 = true ∧ (p.mask.getLsbD 2 = true ∨ 9 ≤ p.cycle)

theorem Ppu.fgPixel_of_shown {p : Ppu} (h : SpritesShown p) :
    p.fgPixel = scanSprites true (p.sprites.take p.spriteCount) ⟨0, 0, false, false⟩ := if_pos h

theorem Ppu.fgPixel_of_not_shown {p : Ppu} (h : ¬ SpritesShown p) : p.fgPixel = ⟨0, 0, false, false⟩ := if_neg h

theorem spritePixel_of_shown {p : Ppu} (h : SpritesShown p) :
    spritePixel p = ((p.sprites.take p.spriteCount).find? stopsScan).map fun u =>
      (unitPixel u, u.attributes.toNat % 4 + 4, !u.attributes.getLsbD 5) := if_pos h

theorem spritePixel_of_not_shown {p : Ppu} (h : ¬ SpritesShown p) : spritePixel p = none := if_neg h

/-- No opaque sprite pixel. -/
theorem Ppu.fgPixel_of_none {p : Ppu} (h : spritePixel p = none) : p.fgPixel.pixel = 0 ∧ p.fgPixel.zero = false := by
  by_cases shown : SpritesShown p
  · rw [spritePixel_of_shown shown, Option.map_eq_none_iff] at h
    rw [Ppu.fgPixel_of_shown shown]
    exact scanSprites_of_find_none true h rfl rfl
  · rw [Ppu.fgPixel_of_not_shown shown]; exact ⟨rfl, rfl⟩

theorem toNat_spritePalette (b : Byte) : ((field b 0 2).setWidth 3 ||| 4 : BitVec 3).toNat = b.toNat % 4 + 4 := by
  revert b; decide

/-- An opaque sprite pixel is that of R421, marked when unit 0 stops the scan. -/
theorem Ppu.fgPixel_of_some {p : Ppu} {px pal : Nat} {front : Bool} (h : spritePixel p = some (px, pal, front)) :
    p.fgPixel.pixel.toNat = px ∧ px ≠ 0 ∧ p.fgPixel.pal.toNat = pal ∧ p.fgPixel.prio = front ∧
      p.fgPixel.zero = (p.sprites.take p.spriteCount).head?.any stopsScan := by
  by_cases shown : SpritesShown p
  · rw [spritePixel_of_shown shown, Option.map_eq_some_iff] at h
    obtain ⟨u, hfind, hu⟩ := h
    cases hu
    have hstop : stopsScan u = true := List.find?_some hfind
    obtain ⟨-, hopaque⟩ := of_decide_eq_true hstop
    rw [Ppu.fgPixel_of_shown shown, scanSprites_of_find_some true hfind rfl rfl]
    exact ⟨toNat_unitPixel u, hopaque, toNat_spritePalette _, rfl, Bool.true_and _⟩
  · rw [spritePixel_of_not_shown shown] at h; cases h

/-! ## The shown pixel and the hit (R422, R423) -/

theorem paletteAddr_eq (px : BitVec 2 × BitVec 3) :
    paletteAddr px = 0x3F00 + BitVec.ofNat 16 (px.2.toNat * 4 + px.1.toNat) := by
  obtain ⟨pixel, pal⟩ := px
  revert pixel pal
  decide

/-- The index of the pixel that is shown is that of R422. -/
theorem combine_eq_shownIndex (p : Ppu) :
    (combine p.bgPixel p.fgPixel).2.toNat * 4 + (combine p.bgPixel p.fgPixel).1.toNat = shownIndex p := by
  have hbg : p.bgPixel.pixel = 0 ↔ p.bgPixel.pixel.toNat = 0 := BitVec.toNat_eq
  have hfg : p.fgPixel.pixel = 0 ↔ p.fgPixel.pixel.toNat = 0 := BitVec.toNat_eq
  unfold combine
  obtain hs | ⟨⟨px, pal, front⟩, hs⟩ : spritePixel p = none ∨ ∃ x, spritePixel p = some x := by
    cases spritePixel p <;> simp
  · have hshown : shownIndex p =
        if (backgroundPixel p).1 = 0 then 0 else (backgroundPixel p).2 * 4 + (backgroundPixel p).1 := by
      unfold shownIndex; rw [hs]
    obtain ⟨hclear, -⟩ := Ppu.fgPixel_of_none hs
    rw [hshown, Ppu.bgPixel_eq]
    by_cases hb : p.bgPixel.pixel = 0
    · rw [if_pos ⟨hb, hclear⟩, if_pos (hbg.mp hb)]; rfl
    · rw [if_neg (fun e => hb e.1), if_neg hb, if_pos hclear, if_neg (hbg.not.mp hb)]
  · have hshown : shownIndex p =
        if (backgroundPixel p).1 = 0 ∨ front = true then pal * 4 + px
        else (backgroundPixel p).2 * 4 + (backgroundPixel p).1 := by
      unfold shownIndex; rw [hs]
    obtain ⟨hpx, hopaque, hpal, hfront, -⟩ := Ppu.fgPixel_of_some hs
    have hf : p.fgPixel.pixel ≠ 0 := hfg.not.mpr (hpx ▸ hopaque)
    rw [hshown, Ppu.bgPixel_eq, if_neg (fun e => hf e.2)]
    by_cases hb : p.bgPixel.pixel = 0
    · rw [if_pos hb, if_pos (.inl (hbg.mp hb)), hpx, hpal]
    · rw [if_neg hb, if_neg hf, hfront]
      cases front with
      | true => rw [if_pos rfl, if_pos (.inr rfl), hpx, hpal]
      | false => rw [if_neg (by decide), if_neg (fun e => e.elim (hbg.not.mp hb) (by decide))]

theorem head?_any_stopsScan (l : List SpriteUnit) :
    l.head?.any stopsScan = true ↔ ∃ u us, l = u :: us ∧ u.x = 0 ∧ unitPixel u ≠ 0 := by
  cases l with
  | nil => simp
  | cons u us => simp [stopsScan]

/-- The sprite that covers unit 0's pixel is unit 0's. -/
theorem Ppu.fgPixel_zero_iff (p : Ppu) :
    p.fgPixel.zero = true ↔
      SpritesShown p ∧ ∃ u us, p.sprites.take p.spriteCount = u :: us ∧ u.x = 0 ∧ unitPixel u ≠ 0 := by
  rw [← head?_any_stopsScan]
  by_cases shown : SpritesShown p
  · simp only [shown, true_and]
    cases hs : spritePixel p with
    | none =>
      rw [(Ppu.fgPixel_of_none hs).2]
      rw [spritePixel_of_shown shown, Option.map_eq_none_iff, List.find?_eq_none] at hs
      cases hl : p.sprites.take p.spriteCount with
      | nil => simp
      | cons u us => simpa [hl] using hs u (by simp [hl])
    | some x =>
      obtain ⟨px, pal, front⟩ := x
      obtain ⟨-, -, -, -, hzero⟩ := Ppu.fgPixel_of_some hs
      rw [hzero]
  · simp [Ppu.fgPixel_of_not_shown shown, shown]

/-- A marked sprite pixel is opaque. -/
theorem Ppu.fgPixel_ne_zero {p : Ppu} (h : p.fgPixel.zero = true) : p.fgPixel.pixel ≠ 0 := by
  cases hs : spritePixel p with
  | none => rw [(Ppu.fgPixel_of_none hs).2] at h; cases h
  | some x =>
    obtain ⟨px, pal, front⟩ := x
    obtain ⟨hpx, hopaque, -⟩ := Ppu.fgPixel_of_some hs
    rintro e
    rw [e] at hpx
    exact hopaque hpx.symm

theorem Ppu.zeroHit_iff (p : Ppu) : p.zeroHit p.bgPixel p.fgPixel = true ↔ ZeroHits p := by
  have hbg : p.bgPixel.pixel ≠ 0 ↔ (backgroundPixel p).1 ≠ 0 := by
    rw [Ppu.bgPixel_eq]; exact BitVec.toNat_eq.not
  unfold Ppu.zeroHit
  simp only [Bool.and_eq_true, Bool.or_eq_true, decide_eq_true_eq, hbg]
  constructor
  · rintro ⟨⟨⟨⟨⟨⟨hb, hf⟩, possible⟩, zero⟩, background⟩, sprites⟩, edge⟩
    exact ⟨hb, (p.fgPixel_zero_iff.mp zero).2, possible, background, sprites, edge⟩
  · rintro ⟨hb, unit, possible, background, sprites, edge⟩
    have zero := p.fgPixel_zero_iff.mpr ⟨⟨sprites, edge.imp (fun e => e.2) id⟩, unit⟩
    exact ⟨⟨⟨⟨⟨⟨hb, Ppu.fgPixel_ne_zero zero⟩, possible⟩, zero⟩, background⟩, sprites⟩, edge⟩

/-! ## The parts of a dot -/

/-- The dots that compose a pixel, the dot after a skipped one in its place. -/
def Composes (p : Ppu) : Prop :=
  (0 ≤ p.scanline ∧ p.scanline ≤ 239 ∧ 1 ≤ p.cycle ∧ p.cycle ≤ 256) ∨ SkipsDot p

theorem Ppu.linePhase_composes_iff (p : Ppu) (c : Cart) :
    (0 ≤ (p.linePhase c).scanline ∧ (p.linePhase c).scanline ≤ 239 ∧ 1 ≤ (p.linePhase c).cycle ∧
      (p.linePhase c).cycle ≤ 256) ↔ Composes p := by
  classical
  rw [(Ppu.linePhase_keeps p c).scanline, Ppu.linePhase_cycle_eq]
  by_cases skip : SkipsDot p
  · obtain ⟨s0, -⟩ := id skip
    rw [if_pos skip]
    exact ⟨fun _ => .inr skip, fun _ => by omega⟩
  · rw [if_neg skip]
    exact ⟨.inl, fun h => h.resolve_right skip⟩

/-- The dot of the start of vblank (62_ppu R424). -/
theorem Ppu.dot_of_rises {p : Ppu} (c : Cart) (hs : p.scanline = 241) (hc : p.cycle = 1) : p.dot c = p.vblankStart := by
  have hline : p.linePhase c = p := Ppu.linePhase_of_not_line c fun h => by have := h.2; omega
  have hv : p.vblankPhase = p.vblankStart := if_pos ⟨hs, hc⟩
  have hp : p.vblankStart.scanline = 241 := hs
  rw [Ppu.dot, hline, hv, Ppu.pixelPhase, if_neg (by omega)]

theorem Ppu.vblankPhase_linePhase_of_not {p : Ppu} (c : Cart) (h : ¬ (p.scanline = 241 ∧ p.cycle = 1)) :
    (p.linePhase c).vblankPhase = p.linePhase c := by
  classical
  refine if_neg fun e => h ?_
  rw [(Ppu.linePhase_keeps p c).scanline, Ppu.linePhase_cycle_eq] at e
  obtain ⟨hs, hc⟩ := e
  have skip : ¬ SkipsDot p := fun skip => by have := skip.1; omega
  rw [if_neg skip] at hc
  exact ⟨hs, hc⟩

theorem Ppu.dot_of_composes {p : Ppu} (c : Cart) (h : Composes p) : p.dot c = (p.linePhase c).composePixel c := by
  have hnot : ¬ (p.scanline = 241 ∧ p.cycle = 1) := by
    rintro ⟨hs, -⟩
    obtain h | ⟨h, -⟩ := h <;> omega
  rw [Ppu.dot, Ppu.vblankPhase_linePhase_of_not c hnot]
  exact if_pos ((p.linePhase_composes_iff c).mpr h)

theorem Ppu.dot_of_not_composes {p : Ppu} (c : Cart) (rises : ¬ (p.scanline = 241 ∧ p.cycle = 1)) (h : ¬ Composes p) :
    p.dot c = p.linePhase c := by
  rw [Ppu.dot, Ppu.vblankPhase_linePhase_of_not c rises]
  exact if_neg (h ∘ (p.linePhase_composes_iff c).mp)

/-! ## The status flags (R416, R422, R424, R425) -/

theorem Ppu.fetchPhase_status (p : Ppu) (c : Cart) : (p.fetchPhase c).status = p.status := by
  unfold Ppu.fetchPhase Ppu.fetchSlot Ppu.scrollX Ppu.shiftSprites Ppu.shiftBackground
  repeat' split
  all_goals rfl

theorem Ppu.addressPhase_status (p : Ppu) (c : Cart) : (p.addressPhase c).status = p.status := by
  unfold Ppu.addressPhase Ppu.scrollY Ppu.transferX Ppu.transferY
  repeat' split
  all_goals rfl

theorem Ppu.skipDot_status (p : Ppu) : p.skipDot.status = p.status := by unfold Ppu.skipDot; split <;> rfl

/-- A bit of a register in which a flag is set under a condition. -/
theorem getLsbD_ite_setBit (v : Byte) {k : Nat} (i : Nat) (hk : k < 8) {A : Prop} [Decidable A] :
    (if A then setBit v i true else v).getLsbD k = true ↔ v.getLsbD k = true ∨ (k = i ∧ A) := by
  by_cases h : A
  · rw [if_pos h, getLsbD_setBit _ _ _ _ hk]
    by_cases hki : k = i
    · rw [if_pos hki]; exact ⟨fun _ => .inr ⟨hki, h⟩, fun _ => rfl⟩
    · rw [if_neg hki]; exact ⟨.inl, fun e => e.resolve_right fun e => hki e.1⟩
  · rw [if_neg h]; exact ⟨.inl, fun e => e.resolve_right fun e => h e.2⟩

/-- Before the sprite phase only the clear writes the flags. -/
theorem Ppu.beforeSprites_status (p : Ppu) (c : Cart) : (p.beforeSprites c).status = p.skipDot.clearPhase.status := by
  rw [Ppu.beforeSprites, Ppu.addressPhase_status, Ppu.fetchPhase_status]

/-- The flags after the line phase: the overflow flag set by the evaluation, else kept. -/
theorem Ppu.linePhase_status {p : Ppu} (c : Cart) (clears : ¬ (p.scanline = -1 ∧ p.cycle = 1))
    [Decidable (EvaluatesSprites p)] :
    (p.linePhase c).status =
      if EvaluatesSprites p ∧ 8 < (evalLoop p).matched then setBit p.status 5 true else p.status := by
  by_cases line : OnFetchLine p
  · have hbefore : (p.beforeSprites c).status = p.status := by
      rw [Ppu.beforeSprites_status, Ppu.skipDot_clearPhase_of_not clears, Ppu.skipDot_status]
    have kept := p.beforeSprites_keeps c
    have hcycle (n : Nat) (hn : 2 ≤ n) : (p.beforeSprites c).cycle = n ↔ p.cycle = n := by
      rw [Ppu.beforeSprites_cycle, Ppu.skipDot_cycle]
      split <;> omega
    have hloop := evalLoop_congr kept.oam kept.ctrl kept.scanline
    rw [Ppu.linePhase_of_line c line]
    by_cases evaluates : EvaluatesSprites p
    · obtain ⟨lo, hi, hc⟩ := id evaluates
      have hphase : (p.beforeSprites c).spritePhase c = (p.beforeSprites c).spriteEvaluate :=
        if_pos ⟨by rw [kept.scanline]; exact lo, (hcycle 257 (by decide)).mpr hc⟩
      rw [hphase, Ppu.spriteEvaluate_eq]
      dsimp only
      rw [hloop, hbefore]
      simp only [evaluates, true_and]
      rfl
    · rw [if_neg (fun e => evaluates e.1), ← hbefore]
      have hno : ¬ (0 ≤ (p.beforeSprites c).scanline ∧ (p.beforeSprites c).cycle = 257) := by
        rw [kept.scanline, hcycle 257 (by decide)]
        exact fun e => evaluates ⟨e.1, line.2, e.2⟩
      rw [Ppu.spritePhase, if_neg hno]
      split <;> rfl
  · have hno : ¬ EvaluatesSprites p := fun e => line ⟨by have := e.1; omega, e.2.1⟩
    rw [Ppu.linePhase_of_not_line c line, if_neg (fun e => hno e.1)]

/-- The flags of a dot that neither raises nor clears vblank. -/
theorem Ppu.dot_status {p : Ppu} (c : Cart) (rises : ¬ (p.scanline = 241 ∧ p.cycle = 1))
    [Decidable (Composes p ∧ ZeroHits (p.linePhase c))] :
    (p.dot c).status =
      if Composes p ∧ ZeroHits (p.linePhase c) then setBit (p.linePhase c).status 6 true
      else (p.linePhase c).status := by
  by_cases composed : Composes p
  · rw [Ppu.dot_of_composes c composed]
    refine ite_congr (propext ?_) (fun _ => rfl) fun _ => rfl
    rw [Ppu.zeroHit_iff]
    exact ⟨fun h => ⟨composed, h⟩, fun h => h.2⟩
  · rw [Ppu.dot_of_not_composes c rises composed, if_neg (fun e => composed e.1)]

/-- The dot of the clear does nothing else (62_ppu R425). -/
theorem Ppu.dot_of_clears {p : Ppu} (c : Cart) (hs : p.scanline = -1) (hc : p.cycle = 1) : p.dot c = p.preRenderClear := by
  have skip : ¬ SkipsDot p := fun skip => by have := skip.1; omega
  have hclear : p.skipDot.clearPhase = p.preRenderClear := by
    rw [Ppu.skipDot_of_not skip]; exact if_pos ⟨hs, hc⟩
  have hcycle : p.preRenderClear.cycle = 1 := hc
  have hfetch : p.preRenderClear.fetchPhase c = p.preRenderClear := if_neg (by omega)
  have haddress : p.preRenderClear.addressPhase c = p.preRenderClear := by
    rw [Ppu.addressPhase, if_neg (by omega), if_neg (by omega), if_neg (by omega), if_neg (by omega)]
  have hsprite : p.preRenderClear.spritePhase c = p.preRenderClear := by
    rw [Ppu.spritePhase, if_neg (by omega), if_neg (by omega)]
  have hline : p.linePhase c = p.preRenderClear := by
    rw [Ppu.linePhase_of_line c ⟨by omega, by omega⟩, Ppu.beforeSprites, hclear, hfetch, haddress, hsprite]
  rw [Ppu.dot_of_not_composes c (by omega) (fun h => ?_), hline]
  obtain h | h := h
  · omega
  · exact skip h

/-- Settles O51: by the flags of the dot that raises vblank, of the one that clears it, and of the others. -/
theorem statusFlagsFollowTheDots : Obligations.StatusFlagsFollowTheDots := by
  intro p c q rises clears composed
  classical
  have hstatus : q.status = (p.dot c).status := ppuTick_status p c
  refine ⟨fun ⟨hs, hc⟩ => ?_, fun ⟨hs, hc⟩ => ?_, fun hrises hclears => ?_⟩
  · rw [hstatus]
    have hlatch : q.nmiLatch = (p.dot c).nmiLatch := by simp only [q]; rw [ppuTick_frame]
    rw [hlatch, Ppu.dot_of_rises c hs hc]
    refine ⟨fun k => ?_, rfl⟩
    by_cases hk : k < 8
    · rw [Ppu.vblankStart, getLsbD_setBit _ _ _ _ hk]
      by_cases h7 : k = 7 <;> simp only [h7] <;> simp
    · rw [BitVec.getLsbD_of_ge _ _ (by omega), BitVec.getLsbD_of_ge _ _ (by omega)]
      simp
      omega
  · have hq : q = p.preRenderClear.advance := by
      simp only [q, ppuTick]
      rw [Ppu.dot_of_clears c hs hc]
    rw [hq, Ppu.advance_frame]
    refine ⟨fun k => ?_, rfl, rfl, fun u hu => ?_⟩
    · by_cases hk : k < 8
      · rw [Ppu.preRenderClear, getLsbD_setBit _ _ _ _ hk, getLsbD_setBit _ _ _ _ hk, getLsbD_setBit _ _ _ _ hk]
        obtain h | h | h | h : k = 5 ∨ k = 6 ∨ k = 7 ∨ k < 5 := by omega
        · subst h; simp
        · subst h; simp
        · subst h; simp
        · rw [if_neg (by omega), if_neg (by omega), if_neg (by omega), decide_eq_true h, Bool.and_true]
      · rw [BitVec.getLsbD_of_ge _ _ (by omega), BitVec.getLsbD_of_ge _ _ (by omega), Bool.false_and]
    · obtain ⟨w, -, rfl⟩ := List.mem_map.mp hu
      exact ⟨rfl, rfl⟩
  · rw [hstatus]
    have hbit (k : Nat) (hk : k < 8) : (p.dot c).status.getLsbD k = true ↔
        p.status.getLsbD k = true ∨ (k = 5 ∧ EvaluatesSprites p ∧ 8 < (evalLoop p).matched) ∨
          (k = 6 ∧ Composes p ∧ ZeroHits (p.linePhase c)) := by
      rw [Ppu.dot_status c hrises, Ppu.linePhase_status c hclears, getLsbD_ite_setBit _ _ hk, getLsbD_ite_setBit _ _ hk,
        or_assoc]
    refine ⟨by simp only [q]; rw [ppuTick_nmiLatch, if_neg hrises], fun k h5 h6 => ?_, ?_, ?_⟩
    · by_cases hk : k < 8
      · rw [Bool.eq_iff_iff, hbit k hk]
        simp only [h5, h6, false_and, or_false]
      · rw [BitVec.getLsbD_of_ge _ _ (by omega), BitVec.getLsbD_of_ge _ _ (by omega)]
    · rw [hbit 5 (by decide)]
      simp only [true_and, show ¬ 5 = 6 by decide, false_and, or_false]
    · rw [hbit 6 (by decide)]
      simp only [true_and, show ¬ 6 = 5 by decide, false_and, false_or]
      rfl

/-! ## The framebuffer (R423) -/

/-- The cell of a composed dot. -/
theorem composesCell_iff (p : Ppu) (c : Cart) (n : Nat) :
    (ComposesCell p n ∨ (SkipsDot p ∧ n = 0)) ↔
      Composes p ∧ n = p.scanline.toNat * 256 + ((p.linePhase c).cycle - 1) := by
  classical
  rw [Ppu.linePhase_cycle_eq]
  by_cases skip : SkipsDot p
  · obtain ⟨s0, c0, -⟩ := id skip
    rw [if_pos skip, s0]
    constructor
    · rintro (⟨-, -, h, -⟩ | ⟨-, hn⟩)
      · omega
      · exact ⟨.inr skip, hn⟩
    · rintro ⟨-, hn⟩
      exact .inr ⟨skip, hn⟩
  · rw [if_neg skip]
    constructor
    · rintro (⟨h1, h2, h3, h4, hn⟩ | ⟨h, -⟩)
      · exact ⟨.inl ⟨h1, h2, h3, h4⟩, hn⟩
      · exact absurd h skip
    · rintro ⟨⟨h1, h2, h3, h4⟩ | h, hn⟩
      · exact .inl ⟨h1, h2, h3, h4, hn⟩
      · exact absurd h skip

/-- A composed dot writes the shown pixel's palette entry to its cell. -/
theorem Ppu.dot_framebuffer_of_composes {p : Ppu} (c : Cart) (h : Composes p) :
    (p.dot c).framebuffer =
      p.framebuffer.write (p.scanline.toNat * 256 + ((p.linePhase c).cycle - 1))
        ((p.linePhase c).read c (paletteAddr (combine (p.linePhase c).bgPixel (p.linePhase c).fgPixel))) := by
  have kept := p.linePhase_keeps c
  rw [Ppu.dot_of_composes c h, Ppu.composePixel, kept.framebuffer, kept.scanline]

theorem Ppu.dot_framebuffer_of_not_composes {p : Ppu} (c : Cart) (h : ¬ Composes p) :
    (p.dot c).framebuffer = p.framebuffer := by
  obtain ⟨v, -, hv⟩ := p.dot_framebuffer c
  rw [hv]
  refine if_neg fun e => h ((p.linePhase_composes_iff c).mp ?_)
  rw [(p.linePhase_keeps c).scanline, Ppu.linePhase_cycle]
  exact e

/-- Settles O54: a step's framebuffer is its dot's, which a composed dot writes in one cell. -/
theorem framebufferIsWrittenByComposedDotsOnly : Obligations.FramebufferIsWrittenByComposedDotsOnly := by
  intro s t hstep n composed q
  have hfb : t.ppu.framebuffer = (s.ppu.dot s.cart).framebuffer := by
    obtain ⟨-, u, hu, rfl⟩ := step_cases hstep
    rw [endTick_ppu, (slot_ppu_keeps hu).framebuffer, devicesTick_ppu, ppuTick_frame]
  have hcell : composed ↔ _ := composesCell_iff s.ppu s.cart n
  rw [hfb, hcell]
  by_cases h : Composes s.ppu
  · rw [Ppu.dot_framebuffer_of_composes s.cart h, Memory.read_write]
    refine ⟨fun ⟨_, hn⟩ => ?_, fun hno => if_neg fun hn => hno ⟨h, hn⟩⟩
    have hrange := (s.ppu.linePhase_composes_iff s.cart).mpr h
    rw [if_pos hn]
    refine ⟨Ppu.read_palette_lt _ _ (paletteAddr_palette _), by simp only [q]; omega, ?_⟩
    rw [paletteAddr_eq, combine_eq_shownIndex]
  · rw [Ppu.dot_framebuffer_of_not_composes s.cart h]
    exact ⟨fun e => absurd e.1 h, fun _ => rfl⟩

end Sys2Proof.Machine

/-! 62_ppu R405 to R415, R419: the video address register and the background latches and shifters across a dot. -/

namespace Sys2Proof

/-! ## Fields of a register after one of them is replaced -/

theorem field_setField_same {w len : Nat} (v : BitVec w) (lo : Nat) (x : BitVec len) (fits : lo + len ≤ w) :
    field (setField v lo x) lo len = x := by
  apply BitVec.eq_of_getLsbD_eq
  intro i hi
  rw [getLsbD_field, getLsbD_setField, if_pos (by omega), decide_eq_true hi, Bool.true_and, Nat.add_sub_cancel_left]

theorem field_setField_of_disjoint {w len len' : Nat} (v : BitVec w) {lo lo' : Nat} (x : BitVec len)
    (disjoint : lo' + len' ≤ lo ∨ lo + len ≤ lo') : field (setField v lo x) lo' len' = field v lo' len' := by
  apply BitVec.eq_of_getLsbD_eq
  intro i hi
  rw [getLsbD_field, getLsbD_field, getLsbD_setField, if_neg (by omega)]

theorem getLsbD_setField_of_disjoint {w len : Nat} (v : BitVec w) {lo : Nat} (x : BitVec len) {i : Nat}
    (disjoint : i < lo ∨ lo + len ≤ i) : (setField v lo x).getLsbD i = v.getLsbD i := by
  rw [getLsbD_setField, if_neg (by omega)]

end Sys2Proof

namespace Sys2Proof.Machine

open Sys2Proof.Claims

theorem field_setBit_of_disjoint {w len : Nat} (v : BitVec w) {i lo : Nat} (b : Bool) (fits : lo + len ≤ w)
    (disjoint : i < lo ∨ lo + len ≤ i) : field (setBit v i b) lo len = field v lo len := by
  apply BitVec.eq_of_getLsbD_eq
  intro j hj
  rw [getLsbD_field, getLsbD_field, getLsbD_setBit _ _ _ _ (by omega), if_neg (by omega)]

/-! ## The five parts of the address register -/

/-- The five parts of `v` (10_state R40). -/
structure Parts (v : BitVec 15) (cx cy : BitVec 5) (fy : BitVec 3) (nx ny : Bool) : Prop where
  coarseX : coarseX v = cx
  coarseY : coarseY v = cy
  fineY : fineY v = fy
  nametableX : nametableX v = nx
  nametableY : nametableY v = ny

theorem Parts.of (v : BitVec 15) :
    Parts v (Machine.coarseX v) (Machine.coarseY v) (Machine.fineY v) (Machine.nametableX v) (Machine.nametableY v) :=
  ⟨rfl, rfl, rfl, rfl, rfl⟩

section
variable {v : BitVec 15} {cx cy : BitVec 5} {fy : BitVec 3} {nx ny : Bool}

theorem Parts.setCoarseX (h : Parts v cx cy fy nx ny) (x : BitVec 5) : Parts (setField v 0 x) x cy fy nx ny where
  coarseX := field_setField_same v 0 x (by decide)
  coarseY := (field_setField_of_disjoint v x (by decide)).trans h.coarseY
  fineY := (field_setField_of_disjoint v x (by decide)).trans h.fineY
  nametableX := (getLsbD_setField_of_disjoint v x (by decide)).trans h.nametableX
  nametableY := (getLsbD_setField_of_disjoint v x (by decide)).trans h.nametableY

theorem Parts.setCoarseY (h : Parts v cx cy fy nx ny) (y : BitVec 5) : Parts (setField v 5 y) cx y fy nx ny where
  coarseX := (field_setField_of_disjoint v y (by decide)).trans h.coarseX
  coarseY := field_setField_same v 5 y (by decide)
  fineY := (field_setField_of_disjoint v y (by decide)).trans h.fineY
  nametableX := (getLsbD_setField_of_disjoint v y (by decide)).trans h.nametableX
  nametableY := (getLsbD_setField_of_disjoint v y (by decide)).trans h.nametableY

theorem Parts.setFineY (h : Parts v cx cy fy nx ny) (y : BitVec 3) : Parts (setField v 12 y) cx cy y nx ny where
  coarseX := (field_setField_of_disjoint v y (by decide)).trans h.coarseX
  coarseY := (field_setField_of_disjoint v y (by decide)).trans h.coarseY
  fineY := field_setField_same v 12 y (by decide)
  nametableX := (getLsbD_setField_of_disjoint v y (by decide)).trans h.nametableX
  nametableY := (getLsbD_setField_of_disjoint v y (by decide)).trans h.nametableY

theorem Parts.setNametableX (h : Parts v cx cy fy nx ny) (b : Bool) : Parts (setBit v 10 b) cx cy fy b ny where
  coarseX := (field_setBit_of_disjoint v b (by decide) (by decide)).trans h.coarseX
  coarseY := (field_setBit_of_disjoint v b (by decide) (by decide)).trans h.coarseY
  fineY := (field_setBit_of_disjoint v b (by decide) (by decide)).trans h.fineY
  nametableX := getLsbD_setBit v 10 10 b (by decide)
  nametableY := (getLsbD_setBit v 10 11 b (by decide)).trans h.nametableY

theorem Parts.setNametableY (h : Parts v cx cy fy nx ny) (b : Bool) : Parts (setBit v 11 b) cx cy fy nx b where
  coarseX := (field_setBit_of_disjoint v b (by decide) (by decide)).trans h.coarseX
  coarseY := (field_setBit_of_disjoint v b (by decide) (by decide)).trans h.coarseY
  fineY := (field_setBit_of_disjoint v b (by decide) (by decide)).trans h.fineY
  nametableX := (getLsbD_setBit v 11 10 b (by decide)).trans h.nametableX
  nametableY := getLsbD_setBit v 11 11 b (by decide)

theorem Parts.flipX (h : Parts v cx cy fy nx ny) : Parts (v ^^^ 0x0400) cx cy fy (!nx) ny := by
  have e : v ^^^ 0x0400 = setBit v 10 (!Machine.nametableX v) := by
    apply BitVec.eq_of_getLsbD_eq
    intro i hi
    rw [getLsbD_setBit _ _ _ _ hi, Machine.nametableX]
    interval_cases i <;> simp
  rw [e, h.nametableX]
  exact h.setNametableX _

theorem Parts.flipY (h : Parts v cx cy fy nx ny) : Parts (v ^^^ 0x0800) cx cy fy nx (!ny) := by
  have e : v ^^^ 0x0800 = setBit v 11 (!Machine.nametableY v) := by
    apply BitVec.eq_of_getLsbD_eq
    intro i hi
    rw [getLsbD_setBit _ _ _ _ hi, Machine.nametableY]
    interval_cases i <;> simp
  rw [e, h.nametableY]
  exact h.setNametableY _

theorem Parts.tileColumn (h : Parts v cx cy fy nx ny) : tileColumn v = nx.toNat * 32 + cx.toNat := by
  have hx : (Machine.nametableX v).toNat = v.toNat / 1024 % 2 := Nat.toNat_testBit _ _
  rw [← h.nametableX, ← h.coarseX, hx, Machine.coarseX, toNat_field, pow_zero, Nat.div_one]
  rfl

theorem Parts.tileRow (h : Parts v cx cy fy nx ny) : tileRow v = cy.toNat := by
  rw [← h.coarseY]; exact (toNat_field v 5 5).symm

theorem Parts.toNat_fineY (h : Parts v cx cy fy nx ny) : v.toNat / 4096 = fy.toNat := by
  have hv := v.isLt
  rw [← h.fineY, Machine.fineY, toNat_field]
  omega

theorem Parts.pixelRow (h : Parts v cx cy fy nx ny) : pixelRow v = cy.toNat * 8 + fy.toNat := by
  rw [Claims.pixelRow, h.tileRow, h.toNat_fineY]

theorem Parts.lowerHalf (h : Parts v cx cy fy nx ny) : lowerHalf v = ny.toNat := by
  have hy : (Machine.nametableY v).toNat = v.toNat / 2048 % 2 := Nat.toNat_testBit _ _
  rw [← h.nametableY, hy]
  rfl

end

/-! ## The four steps of the address register (R412 to R415) -/

/-- `v` at the next tile of a row of two nametables (62_ppu R412). -/
def nextColumn (v : BitVec 15) : BitVec 15 :=
  if coarseX v = 31 then setField v 0 (0 : BitVec 5) ^^^ 0x0400 else setField v 0 (coarseX v + 1)

/-- `v` at the next pixel row (62_ppu R413). -/
def nextRow (v : BitVec 15) : BitVec 15 :=
  if fineY v < 7 then setField v 12 (fineY v + 1)
  else
    let w := setField v 12 (0 : BitVec 3)
    if coarseY v = 29 then setField w 5 (0 : BitVec 5) ^^^ 0x0800
    else if coarseY v = 31 then setField w 5 (0 : BitVec 5)
    else setField w 5 (coarseY v + 1)

/-- `v` with the horizontal fields of `t` (62_ppu R414). -/
def withHorizontal (v t : BitVec 15) : BitVec 15 := setBit (setField v 0 (coarseX t)) 10 (nametableX t)

/-- `v` with the vertical fields of `t` (62_ppu R415). -/
def withVertical (v t : BitVec 15) : BitVec 15 :=
  setBit (setField (setField v 12 (fineY t)) 5 (coarseY t)) 11 (nametableY t)

theorem Ppu.scrollX_eq (p : Ppu) : p.scrollX = { p with v := if p.rendering then nextColumn p.v else p.v } := by
  unfold Ppu.scrollX nextColumn
  split
  · split <;> rfl
  · rfl

theorem Ppu.scrollY_eq (p : Ppu) : p.scrollY = { p with v := if p.rendering then nextRow p.v else p.v } := by
  unfold Ppu.scrollY nextRow
  dsimp only
  repeat' split
  all_goals rfl

theorem Ppu.transferX_eq (p : Ppu) :
    p.transferX = { p with v := if p.rendering then withHorizontal p.v p.t else p.v } := by
  unfold Ppu.transferX; split <;> rfl

theorem Ppu.transferY_eq (p : Ppu) : p.transferY = { p with v := if p.rendering then withVertical p.v p.t else p.v } := by
  unfold Ppu.transferY; split <;> rfl

theorem nextColumn_parts (v : BitVec 15) :
    ∃ cx nx, Parts (nextColumn v) cx (coarseY v) (fineY v) nx (nametableY v) ∧
      nx.toNat * 32 + cx.toNat = (tileColumn v + 1) % 64 := by
  have hv := Parts.of v
  have hx := (coarseX v).isLt
  have hn := Bool.toNat_lt (nametableX v)
  rw [hv.tileColumn, nextColumn]
  by_cases h : coarseX v = 31
  · have hcx : (coarseX v).toNat = 31 := congrArg BitVec.toNat h
    rw [if_pos h]
    refine ⟨_, _, (hv.setCoarseX 0).flipX, ?_⟩
    rw [hcx]
    cases nametableX v <;> rfl
  · rw [if_neg h]
    refine ⟨_, _, hv.setCoarseX _, ?_⟩
    have : (coarseX v + 1).toNat = (coarseX v).toNat + 1 := by bv_omega
    omega

/-- The row counter runs through 480 pixel rows, and within a nametable from row 240 on. -/
theorem nextRow_parts (v : BitVec 15) :
    ∃ cy fy ny, Parts (nextRow v) (coarseX v) cy fy (nametableX v) ny ∧
      (tileRow v < 30 → cy.toNat < 30 ∧
        ny.toNat * 240 + (cy.toNat * 8 + fy.toNat) = (lowerHalf v * 240 + pixelRow v + 1) % 480) ∧
      (30 ≤ tileRow v → ny.toNat = lowerHalf v ∧ cy.toNat * 8 + fy.toNat = (pixelRow v + 1) % 256) := by
  have hv := Parts.of v
  have hy := (coarseY v).isLt
  have hf := (fineY v).isLt
  have hn := Bool.toNat_lt (nametableY v)
  rw [hv.tileRow, hv.lowerHalf, hv.pixelRow, nextRow]
  by_cases fine : fineY v < 7
  · rw [if_pos fine]
    refine ⟨_, _, _, hv.setFineY _, ?_⟩
    have : (fineY v + 1).toNat = (fineY v).toNat + 1 := by bv_omega
    have : (fineY v).toNat < 7 := fine
    omega
  · have hfine : (fineY v).toNat = 7 := by bv_omega
    rw [if_neg fine]
    dsimp only
    by_cases h29 : coarseY v = 29
    · have hcy : (coarseY v).toNat = 29 := congrArg BitVec.toNat h29
      rw [if_pos h29]
      refine ⟨_, _, _, ((hv.setFineY 0).setCoarseY 0).flipY, ?_⟩
      rw [hcy, hfine]
      cases nametableY v <;> decide
    · rw [if_neg h29]
      by_cases h31 : coarseY v = 31
      · have hcy : (coarseY v).toNat = 31 := congrArg BitVec.toNat h31
        rw [if_pos h31]
        refine ⟨_, _, _, (hv.setFineY 0).setCoarseY 0, ?_⟩
        rw [hcy, hfine]
        exact ⟨fun h => by omega, fun _ => ⟨rfl, rfl⟩⟩
      · rw [if_neg h31]
        refine ⟨_, _, _, (hv.setFineY 0).setCoarseY _, ?_⟩
        have : (coarseY v + 1).toNat = (coarseY v).toNat + 1 := by bv_omega
        have : (coarseY v).toNat ≠ 29 := fun e => h29 (BitVec.eq_of_toNat_eq e)
        have : (0 : BitVec 3).toNat = 0 := rfl
        omega

theorem withHorizontal_parts (v t : BitVec 15) :
    Parts (withHorizontal v t) (coarseX t) (coarseY v) (fineY v) (nametableX t) (nametableY v) :=
  ((Parts.of v).setCoarseX _).setNametableX _

theorem withVertical_parts (v t : BitVec 15) :
    Parts (withVertical v t) (coarseX v) (coarseY t) (fineY t) (nametableX v) (nametableY t) :=
  (((Parts.of v).setFineY _).setCoarseY _).setNametableY _

/-! ## The addresses and the bytes read (R409, R410) -/

theorem Ppu.tileAddr_eq (p : Ppu) : p.tileAddr = BitVec.ofNat 16 (0x2000 + p.v.toNat % 0x1000) := by
  have hv := p.v.isLt
  have hlow : (p.v.setWidth 16 &&& 0x0FFF).toNat = p.v.toNat % 0x1000 := by
    rw [toNat_and_mask _ _ 12 rfl, BitVec.toNat_setWidth]; omega
  have hbase : (0x2000 : Word).toNat = 0x2000 := rfl
  apply BitVec.eq_of_toNat_eq
  rw [Ppu.tileAddr, toNat_or_of_lt 12 rfl (by rw [hlow]; omega), hlow, hbase, BitVec.toNat_ofNat]
  omega

theorem Ppu.attribAddr_eq (p : Ppu) :
    p.attribAddr =
      BitVec.ofNat 16 (0x23C0 + p.v.toNat / 1024 % 4 * 1024 + tileRow p.v / 4 * 8 + p.v.toNat % 32 / 4) := by
  have hv := p.v.isLt
  have hny : (nametableY p.v).toNat = p.v.toNat / 2048 % 2 := Nat.toNat_testBit _ _
  have hnx : (nametableX p.v).toNat = p.v.toNat / 1024 % 2 := Nat.toNat_testBit _ _
  have hbase (ny nx : Bool) : (((0x23C0 : Nat) : Word) ||| ((if ny then 0x0800 else 0 : Nat) : Word) |||
      ((if nx then 0x0400 else 0 : Nat) : Word)).toNat = 0x23C0 + ny.toNat * 2048 + nx.toNat * 1024 := by
    revert ny nx; decide
  have hrow : ((field (coarseY p.v) 2 3).setWidth 16 <<< 3 : Word).toNat = tileRow p.v / 4 * 8 := by
    rw [BitVec.toNat_shiftLeft, BitVec.toNat_setWidth, toNat_field, coarseY, toNat_field, Nat.shiftLeft_eq, tileRow]
    omega
  have hcolumn : ((field (coarseX p.v) 2 3).setWidth 16 : Word).toNat = p.v.toNat % 32 / 4 := by
    rw [BitVec.toNat_setWidth, toNat_field, coarseX, toNat_field]
    omega
  have hhalf : p.v.toNat / 1024 % 4 * 1024 = p.v.toNat / 2048 % 2 * 2048 + p.v.toNat / 1024 % 2 * 1024 := by omega
  have htable := hbase (nametableY p.v) (nametableX p.v)
  have hlt : tileRow p.v < 32 := Nat.mod_lt _ (by decide)
  have hupper := toNat_or_of_lt 6 (x := ((0x23C0 : Nat) : Word) ||| ((if nametableY p.v then 0x0800 else 0 : Nat) : Word) |||
      ((if nametableX p.v then 0x0400 else 0 : Nat) : Word)) (by omega)
    (show ((field (coarseY p.v) 2 3).setWidth 16 <<< 3 : Word).toNat < 2 ^ 6 by omega)
  have hmod : (((0x23C0 : Nat) : Word) ||| ((if nametableY p.v then 0x0800 else 0 : Nat) : Word) |||
      ((if nametableX p.v then 0x0400 else 0 : Nat) : Word) ||| (field (coarseY p.v) 2 3).setWidth 16 <<< 3).toNat %
      2 ^ 3 = 0 := by
    rw [hupper, htable, hrow]; omega
  have hsum := toNat_or_of_lt 3 hmod (show ((field (coarseX p.v) 2 3).setWidth 16 : Word).toNat < 2 ^ 3 by omega)
  apply BitVec.eq_of_toNat_eq
  refine hsum.trans ?_
  rw [hupper, htable, hrow, hcolumn, hny, hnx, BitVec.toNat_ofNat, hhalf]
  omega

theorem Ppu.toNat_attribFetch (p : Ppu) (c : Cart) :
    (p.attribFetch c).toNat =
      (p.read c p.attribAddr).toNat / 2 ^ (tileRow p.v / 2 % 2 * 4 + p.v.toNat / 2 % 2 * 2) % 4 := by
  have hy : tileRow p.v / 2 % 2 = ((coarseY p.v).getLsbD 1).toNat := by
    rw [(Parts.of p.v).tileRow]; exact (Nat.toNat_testBit _ 1).symm
  have hx : p.v.toNat / 2 % 2 = ((coarseX p.v).getLsbD 1).toNat := by
    rw [coarseX, getLsbD_field]; exact (Nat.toNat_testBit _ 1).symm
  have hmask (b : Byte) : (b &&& 3).toNat = b.toNat % 4 := toNat_and_mask b _ 2 rfl
  rw [hy, hx, Ppu.attribFetch, hmask]
  cases (coarseY p.v).getLsbD 1 <;> cases (coarseX p.v).getLsbD 1 <;> simp [Nat.shiftRight_eq_div_pow]

theorem Ppu.bgPatternAddr_eq (p : Ppu) :
    p.bgPatternAddr =
      BitVec.ofNat 16 ((if p.ctrl.getLsbD 4 then 0x1000 else 0) + p.nextTileId.toNat * 16 + p.v.toNat / 4096) := by
  have hid := p.nextTileId.isLt
  have hfine := (Parts.of p.v).toNat_fineY
  have hlt := (fineY p.v).isLt
  have hrow : ((fineY p.v).setWidth 16).toNat = p.v.toNat / 4096 := by rw [BitVec.toNat_setWidth]; omega
  have htile : (zext p.nextTileId <<< 4 : Word).toNat = p.nextTileId.toNat * 16 := by
    rw [BitVec.toNat_shiftLeft, zext_toNat, Nat.shiftLeft_eq]; omega
  have htable := toNat_natCast_ite (p.ctrl.getLsbD 4) (n := 0x1000) (by decide)
  apply BitVec.eq_of_toNat_eq
  change (((if p.ctrl.getLsbD 4 then 0x1000 else 0 : Nat) : Word) + zext p.nextTileId <<< 4 +
    (fineY p.v).setWidth 16).toNat = _
  rw [BitVec.toNat_add, BitVec.toNat_add, htable, htile, hrow, BitVec.toNat_ofNat]
  omega

/-! ## The shift and fetch window, and the address steps (R407 to R411, R419) -/

/-- The dots of the shift and fetch windows. -/
abbrev InWindow (p : Ppu) : Prop := (2 ≤ p.cycle ∧ p.cycle ≤ 257) ∨ (321 ≤ p.cycle ∧ p.cycle ≤ 337)

/-- A background shifter after the shift of a dot (62_ppu R411). -/
def Ppu.shifted (p : Ppu) (w : Word) : Word := if p.showBackground then w <<< 1 else w

/-- The dots of a window that fetch in slot `k` of the eight (62_ppu R404). -/
abbrev InSlot (p : Ppu) (k : Nat) : Prop := InWindow p ∧ (p.cycle - 1) % 8 = k

/-- A background shifter after a dot: shifted, and loaded with a tile's byte every eighth dot. -/
def Ppu.shifterAfter (p : Ppu) (w : Word) (low : Byte) : Word :=
  if InSlot p 0 then loadLow (p.shifted w) low else if InWindow p then p.shifted w else w

theorem Ppu.shift_eq (p : Ppu) :
    p.shiftBackground.shiftSprites =
      { p with
        shiftPatternLo := p.shifted p.shiftPatternLo
        shiftPatternHi := p.shifted p.shiftPatternHi
        shiftAttribLo := p.shifted p.shiftAttribLo
        shiftAttribHi := p.shifted p.shiftAttribHi
        sprites := p.shiftBackground.shiftSprites.sprites } := by
  unfold Ppu.shiftSprites Ppu.shiftBackground Ppu.shifted
  split <;> split <;> rfl

/-- The fetch of a window's dot, by its slot (62_ppu R404). -/
theorem Ppu.fetchSlot_eq (p : Ppu) (c : Cart) :
    p.fetchSlot c =
      { p with
        shiftPatternLo := if (p.cycle - 1) % 8 = 0 then loadLow p.shiftPatternLo p.nextTileLsb else p.shiftPatternLo
        shiftPatternHi := if (p.cycle - 1) % 8 = 0 then loadLow p.shiftPatternHi p.nextTileMsb else p.shiftPatternHi
        shiftAttribLo := if (p.cycle - 1) % 8 = 0 then
          loadLow p.shiftAttribLo (if p.nextTileAttrib.getLsbD 0 then 0xFF else 0x00) else p.shiftAttribLo
        shiftAttribHi := if (p.cycle - 1) % 8 = 0 then
          loadLow p.shiftAttribHi (if p.nextTileAttrib.getLsbD 1 then 0xFF else 0x00) else p.shiftAttribHi
        nextTileId := if (p.cycle - 1) % 8 = 0 then p.read c p.tileAddr else p.nextTileId
        nextTileAttrib := if (p.cycle - 1) % 8 = 2 then p.attribFetch c else p.nextTileAttrib
        nextTileLsb := if (p.cycle - 1) % 8 = 4 then p.read c p.bgPatternAddr else p.nextTileLsb
        nextTileMsb := if (p.cycle - 1) % 8 = 6 then p.read c (p.bgPatternAddr + 8) else p.nextTileMsb
        v := if (p.cycle - 1) % 8 = 7 ∧ p.rendering = true then nextColumn p.v else p.v } := by
  have hlt : (p.cycle - 1) % 8 < 8 := Nat.mod_lt _ (by decide)
  unfold Ppu.fetchSlot
  generalize (p.cycle - 1) % 8 = k at hlt
  obtain rfl | rfl | rfl | rfl | rfl | rfl | rfl | rfl :
    k = 0 ∨ k = 1 ∨ k = 2 ∨ k = 3 ∨ k = 4 ∨ k = 5 ∨ k = 6 ∨ k = 7 := by omega
  case inr.inr.inr.inr.inr.inr.inr =>
    rw [Ppu.scrollX_eq]
    simp only [true_and]
    rfl
  all_goals rfl

/-- `v` after the address steps of a dot. -/
def Ppu.steppedV (p : Ppu) : BitVec 15 :=
  if p.rendering then
    if p.cycle = 256 then nextRow p.v
    else if p.cycle = 257 then withHorizontal p.v p.t
    else if p.scanline = -1 ∧ 280 ≤ p.cycle ∧ p.cycle ≤ 304 then withVertical p.v p.t
    else p.v
  else p.v

theorem Ppu.addressPhase_eq (p : Ppu) (c : Cart) :
    p.addressPhase c =
      { p with
        shiftPatternLo := if p.cycle = 257 then loadLow p.shiftPatternLo p.nextTileLsb else p.shiftPatternLo
        shiftPatternHi := if p.cycle = 257 then loadLow p.shiftPatternHi p.nextTileMsb else p.shiftPatternHi
        shiftAttribLo := if p.cycle = 257 then
          loadLow p.shiftAttribLo (if p.nextTileAttrib.getLsbD 0 then 0xFF else 0x00) else p.shiftAttribLo
        shiftAttribHi := if p.cycle = 257 then
          loadLow p.shiftAttribHi (if p.nextTileAttrib.getLsbD 1 then 0xFF else 0x00) else p.shiftAttribHi
        nextTileId := if p.cycle = 338 ∨ p.cycle = 340 then p.read c p.tileAddr else p.nextTileId
        v := p.steppedV } := by
  unfold Ppu.addressPhase Ppu.steppedV
  by_cases h256 : p.cycle = 256
  · have h257 : ¬ p.cycle = 257 := by omega
    have htile : ¬ (p.cycle = 338 ∨ p.cycle = 340) := by omega
    simp only [if_pos h256, if_neg h257, if_neg htile, Ppu.scrollY_eq]
  by_cases h257 : p.cycle = 257
  · have htile : ¬ (p.cycle = 338 ∨ p.cycle = 340) := by omega
    simp only [if_neg h256, if_pos h257, if_neg htile, Ppu.transferX_eq]
    rfl
  by_cases htile : p.cycle = 338 ∨ p.cycle = 340
  · have hv : ¬ (p.scanline = -1 ∧ 280 ≤ p.cycle ∧ p.cycle ≤ 304) := by omega
    simp only [if_neg h256, if_neg h257, if_pos htile, if_neg hv, ite_self]
    rfl
  by_cases hv : p.scanline = -1 ∧ 280 ≤ p.cycle ∧ p.cycle ≤ 304
  · simp only [if_neg h256, if_neg h257, if_neg htile, if_pos hv, Ppu.transferY_eq]
  · simp only [if_neg h256, if_neg h257, if_neg htile, if_neg hv, ite_self]

theorem Ppu.fetchPhase_of_not_window {p : Ppu} (c : Cart) (h : ¬ InWindow p) : p.fetchPhase c = p := if_neg h

/-- A window's dot shifts, then fetches. -/
theorem Ppu.fetchPhase_of_window {p : Ppu} (c : Cart) (h : InWindow p) :
    p.fetchPhase c =
      { p with
        shiftPatternLo := p.shifterAfter p.shiftPatternLo p.nextTileLsb
        shiftPatternHi := p.shifterAfter p.shiftPatternHi p.nextTileMsb
        shiftAttribLo := p.shifterAfter p.shiftAttribLo (if p.nextTileAttrib.getLsbD 0 then 0xFF else 0x00)
        shiftAttribHi := p.shifterAfter p.shiftAttribHi (if p.nextTileAttrib.getLsbD 1 then 0xFF else 0x00)
        nextTileId := if InSlot p 0 then p.read c p.tileAddr else p.nextTileId
        nextTileAttrib := if InSlot p 2 then p.attribFetch c else p.nextTileAttrib
        nextTileLsb := if InSlot p 4 then p.read c p.bgPatternAddr else p.nextTileLsb
        nextTileMsb := if InSlot p 6 then p.read c (p.bgPatternAddr + 8) else p.nextTileMsb
        v := if InSlot p 7 ∧ p.rendering = true then nextColumn p.v else p.v
        sprites := p.shiftBackground.shiftSprites.sprites } := by
  have hphase : p.fetchPhase c = p.shiftBackground.shiftSprites.fetchSlot c := if_pos h
  rw [hphase, Ppu.shift_eq]
  simp only [Ppu.fetchSlot_eq, Ppu.shifterAfter, InSlot, h, true_and]
  rfl

/-- A loaded shifter is not changed by loading the same byte again. -/
theorem loadLow_loadLow (w : Word) (b : Byte) : loadLow (loadLow w b) b = loadLow w b := by
  unfold loadLow
  apply BitVec.eq_of_getLsbD_eq
  intro i hi
  interval_cases i <;> simp [zext]

theorem Ppu.loadLow_shifterAfter {p : Ppu} (w : Word) (b : Byte) (h : p.cycle = 257) :
    loadLow (p.shifterAfter w b) b = p.shifterAfter w b := by
  have hslot : InSlot p 0 := ⟨by omega, by omega⟩
  rw [Ppu.shifterAfter, if_pos hslot, loadLow_loadLow]

/-- `v` after a dot of a fetched scanline. -/
def Ppu.vAfter (p : Ppu) : BitVec 15 := { p with v := if InSlot p 7 ∧ p.rendering = true then nextColumn p.v else p.v }.steppedV

/-- The background's registers after a dot of a fetched scanline. -/
structure Ppu.BackgroundAfter (c : Cart) (p q : Ppu) : Prop where
  shiftPatternLo : q.shiftPatternLo = p.shifterAfter p.shiftPatternLo p.nextTileLsb
  shiftPatternHi : q.shiftPatternHi = p.shifterAfter p.shiftPatternHi p.nextTileMsb
  shiftAttribLo : q.shiftAttribLo = p.shifterAfter p.shiftAttribLo (if p.nextTileAttrib.getLsbD 0 then 0xFF else 0x00)
  shiftAttribHi : q.shiftAttribHi = p.shifterAfter p.shiftAttribHi (if p.nextTileAttrib.getLsbD 1 then 0xFF else 0x00)
  nextTileId : q.nextTileId =
    if InSlot p 0 ∨ p.cycle = 338 ∨ p.cycle = 340 then p.read c p.tileAddr else p.nextTileId
  nextTileAttrib : q.nextTileAttrib = if InSlot p 2 then p.attribFetch c else p.nextTileAttrib
  nextTileLsb : q.nextTileLsb = if InSlot p 4 then p.read c p.bgPatternAddr else p.nextTileLsb
  nextTileMsb : q.nextTileMsb = if InSlot p 6 then p.read c (p.bgPatternAddr + 8) else p.nextTileMsb
  v : q.v = p.vAfter

theorem Ppu.addressPhase_of_window {p : Ppu} (c : Cart) (h : InWindow p) :
    Ppu.BackgroundAfter c p ((p.fetchPhase c).addressPhase c) := by
  have htile : ¬ (p.cycle = 338 ∨ p.cycle = 340) := by omega
  rw [Ppu.addressPhase_eq, Ppu.fetchPhase_of_window c h]
  by_cases h257 : p.cycle = 257
  · have h2 : ¬ InSlot p 2 := fun e => by have := e.2; omega
    have h4 : ¬ InSlot p 4 := fun e => by have := e.2; omega
    have h6 : ¬ InSlot p 6 := fun e => by have := e.2; omega
    simp only [if_pos h257, if_neg htile, if_neg h2, if_neg h4, if_neg h6, Ppu.loadLow_shifterAfter _ _ h257]
    refine ⟨rfl, rfl, rfl, rfl, ?_, (if_neg h2).symm, (if_neg h4).symm, (if_neg h6).symm, rfl⟩
    simp only [htile, or_false]
  · simp only [if_neg h257, if_neg htile]
    refine ⟨rfl, rfl, rfl, rfl, ?_, rfl, rfl, rfl, rfl⟩
    simp only [htile, or_false]

theorem Ppu.shifterAfter_of_not_window {p : Ppu} (w : Word) (b : Byte) (h : ¬ InWindow p) : p.shifterAfter w b = w := by
  rw [Ppu.shifterAfter, if_neg fun e => h e.1, if_neg h]

theorem Ppu.vAfter_of_not_window {p : Ppu} (h : ¬ InWindow p) : p.vAfter = p.steppedV := by
  rw [Ppu.vAfter, if_neg fun e => h e.1.1]

theorem Ppu.addressPhase_of_not_window {p : Ppu} (c : Cart) (h : ¬ InWindow p) :
    Ppu.BackgroundAfter c p ((p.fetchPhase c).addressPhase c) := by
  have h257 : ¬ p.cycle = 257 := by omega
  have hslot (k : Nat) : ¬ InSlot p k := fun e => h e.1
  rw [Ppu.addressPhase_eq, Ppu.fetchPhase_of_not_window c h]
  simp only [if_neg h257]
  refine ⟨(Ppu.shifterAfter_of_not_window _ _ h).symm, (Ppu.shifterAfter_of_not_window _ _ h).symm,
    (Ppu.shifterAfter_of_not_window _ _ h).symm, (Ppu.shifterAfter_of_not_window _ _ h).symm, ?_,
    (if_neg (hslot 2)).symm, (if_neg (hslot 4)).symm, (if_neg (hslot 6)).symm, (Ppu.vAfter_of_not_window h).symm⟩
  simp only [hslot 0, false_or]

/-- The background's registers and `v` are alike. -/
structure Ppu.SameBackground (p q : Ppu) : Prop where
  shiftPatternLo : q.shiftPatternLo = p.shiftPatternLo
  shiftPatternHi : q.shiftPatternHi = p.shiftPatternHi
  shiftAttribLo : q.shiftAttribLo = p.shiftAttribLo
  shiftAttribHi : q.shiftAttribHi = p.shiftAttribHi
  nextTileId : q.nextTileId = p.nextTileId
  nextTileAttrib : q.nextTileAttrib = p.nextTileAttrib
  nextTileLsb : q.nextTileLsb = p.nextTileLsb
  nextTileMsb : q.nextTileMsb = p.nextTileMsb
  v : q.v = p.v

theorem Ppu.SameBackground.kept {p q : Ppu} (h : Ppu.SameBackground p q) : BackgroundKept p q := by
  rw [BackgroundKept, ← h.shiftPatternLo, ← h.shiftPatternHi, ← h.shiftAttribLo, ← h.shiftAttribHi, ← h.nextTileId,
    ← h.nextTileAttrib, ← h.nextTileLsb, ← h.nextTileMsb]

theorem Ppu.BackgroundAfter.of_same {c : Cart} {p q r : Ppu} (h : Ppu.BackgroundAfter c p q)
    (same : Ppu.SameBackground q r) : Ppu.BackgroundAfter c p r where
  shiftPatternLo := same.shiftPatternLo.trans h.shiftPatternLo
  shiftPatternHi := same.shiftPatternHi.trans h.shiftPatternHi
  shiftAttribLo := same.shiftAttribLo.trans h.shiftAttribLo
  shiftAttribHi := same.shiftAttribHi.trans h.shiftAttribHi
  nextTileId := same.nextTileId.trans h.nextTileId
  nextTileAttrib := same.nextTileAttrib.trans h.nextTileAttrib
  nextTileLsb := same.nextTileLsb.trans h.nextTileLsb
  nextTileMsb := same.nextTileMsb.trans h.nextTileMsb
  v := same.v.trans h.v

theorem Ppu.skipDot_clearPhase_sameBackground (p : Ppu) : Ppu.SameBackground p p.skipDot.clearPhase := by
  unfold Ppu.clearPhase Ppu.skipDot
  split <;> split <;> exact ⟨rfl, rfl, rfl, rfl, rfl, rfl, rfl, rfl, rfl⟩

theorem Ppu.spritePhase_sameBackground (p : Ppu) (c : Cart) : Ppu.SameBackground p (p.spritePhase c) := by
  unfold Ppu.spritePhase
  split
  · exact ⟨rfl, rfl, rfl, rfl, rfl, rfl, rfl, rfl, rfl⟩
  · split <;> exact ⟨rfl, rfl, rfl, rfl, rfl, rfl, rfl, rfl, rfl⟩

/-- Vblank, the pixel and the counters do not concern the background's registers. -/
theorem ppuTick_sameBackground (p : Ppu) (c : Cart) : Ppu.SameBackground (p.linePhase c) (ppuTick p c).1 := by
  rw [ppuTick_frame]; exact ⟨rfl, rfl, rfl, rfl, rfl, rfl, rfl, rfl, rfl⟩

/-- Dots 0 and 1 leave the background's registers alone, skipped, clearing or not. -/
theorem Ppu.beforeSprites_of_lt {p : Ppu} (c : Cart) (h : p.cycle < 2) :
    Ppu.BackgroundAfter c p (p.beforeSprites c) := by
  have hwindow (q : Ppu) (hq : q.cycle < 2) : ¬ InWindow q := by unfold InWindow; omega
  have hcycle : p.skipDot.clearPhase.cycle < 2 := by
    rw [Ppu.clearPhase_cycle, Ppu.skipDot_cycle]; split <;> omega
  have hbefore : p.beforeSprites c = p.skipDot.clearPhase := by
    rw [Ppu.beforeSprites, Ppu.fetchPhase_of_not_window c (hwindow _ hcycle), Ppu.addressPhase, if_neg (by omega),
      if_neg (by omega), if_neg (by omega), if_neg (by omega)]
  have quiet : Ppu.BackgroundAfter c p p := by
    have hslot (k : Nat) : ¬ InSlot p k := fun e => hwindow p h e.1
    refine ⟨(Ppu.shifterAfter_of_not_window _ _ (hwindow p h)).symm, (Ppu.shifterAfter_of_not_window _ _ (hwindow p h)).symm,
      (Ppu.shifterAfter_of_not_window _ _ (hwindow p h)).symm, (Ppu.shifterAfter_of_not_window _ _ (hwindow p h)).symm, ?_,
      (if_neg (hslot 2)).symm, (if_neg (hslot 4)).symm, (if_neg (hslot 6)).symm, ?_⟩
    · rw [if_neg]
      rintro (e | e)
      · exact hslot 0 e
      · omega
    · rw [Ppu.vAfter_of_not_window (hwindow p h), Ppu.steppedV]
      split
      · rw [if_neg (by omega), if_neg (by omega), if_neg (by omega)]
      · rfl
  rw [hbefore]
  exact quiet.of_same p.skipDot_clearPhase_sameBackground

/-- A dot of a fetched scanline, on the background's registers. -/
theorem ppuTick_background {p : Ppu} (c : Cart) (line : OnFetchLine p) :
    Ppu.BackgroundAfter c p (ppuTick p c).1 := by
  refine Ppu.BackgroundAfter.of_same ?_ (ppuTick_sameBackground p c)
  rw [Ppu.linePhase_of_line c line]
  refine Ppu.BackgroundAfter.of_same ?_ ((p.beforeSprites c).spritePhase_sameBackground c)
  by_cases h : p.cycle < 2
  · exact Ppu.beforeSprites_of_lt c h
  · have hskip : ¬ SkipsDot p := fun skip => h (by rw [skip.2.1]; decide)
    rw [Ppu.beforeSprites, Ppu.skipDot_of_not hskip, Ppu.clearPhase_of_not (by omega)]
    by_cases window : InWindow p
    · exact Ppu.addressPhase_of_window c window
    · exact Ppu.addressPhase_of_not_window c window

/-! ## The obligation's numbers -/

theorem toNat_loadLow (w : Word) (b : Byte) : (loadLow w b).toNat = w.toNat / 256 * 256 + b.toNat := by
  have hb := b.isLt
  have hw := w.isLt
  have hand : w &&& (0xFF00 : Word) = (w >>> 8) <<< 8 := by
    apply BitVec.eq_of_getLsbD_eq
    intro i hi
    interval_cases i <;> simp
  have hhigh : ((w >>> 8) <<< 8).toNat = w.toNat / 256 * 256 := by
    rw [BitVec.toNat_shiftLeft, BitVec.toNat_ushiftRight, Nat.shiftLeft_eq, Nat.shiftRight_eq_div_pow]
    omega
  rw [loadLow, hand, toNat_or_of_lt 8 (by omega) (by rw [zext_toNat]; omega), hhigh, zext_toNat]

theorem Ppu.toNat_shifted (p : Ppu) (w : Word) :
    (p.shifted w).toNat = if p.mask.getLsbD 3 then 2 * w.toNat % 0x10000 else w.toNat := by
  have hshift : (w <<< 1).toNat = 2 * w.toNat % 0x10000 := by
    rw [BitVec.toNat_shiftLeft, Nat.shiftLeft_eq, pow_one, mul_comm]
  rw [← hshift]
  exact apply_ite BitVec.toNat _ _ _

theorem Ppu.toNat_shifterAfter (p : Ppu) (w : Word) (low : Byte) :
    (p.shifterAfter w low).toNat =
      if InSlot p 0 then (if p.mask.getLsbD 3 then 2 * w.toNat % 0x10000 else w.toNat) / 256 * 256 + low.toNat
      else if InWindow p then if p.mask.getLsbD 3 then 2 * w.toNat % 0x10000 else w.toNat
      else w.toNat := by
  unfold Ppu.shifterAfter
  rw [← Ppu.toNat_shifted]
  split
  · exact toNat_loadLow _ _
  · split <;> rfl

theorem toNat_attribByte (b : Bool) : (if b then 0xFF else 0x00 : Byte).toNat = if b then 255 else 0 := by
  cases b <;> rfl

theorem Ppu.BackgroundAfter.stepped {c : Cart} {p q : Ppu} (h : Ppu.BackgroundAfter c p q) : BackgroundStepped c p q where
  shifters := by
    refine ⟨?_, ?_, ?_, ?_⟩
    · rw [h.shiftPatternLo]; exact p.toNat_shifterAfter _ _
    · rw [h.shiftPatternHi]; exact p.toNat_shifterAfter _ _
    · rw [h.shiftAttribLo, ← toNat_attribByte]; exact p.toNat_shifterAfter _ _
    · rw [h.shiftAttribHi, ← toNat_attribByte]; exact p.toNat_shifterAfter _ _
  latches := by
    have hpattern := p.bgPatternAddr_eq
    have hpattern8 : p.bgPatternAddr + 8 = _ := (congrArg (· + 8) hpattern).trans (BitVec.ofNat_add _ 8).symm
    refine ⟨?_, ?_, ?_, ?_⟩
    · rw [h.nextTileId, p.tileAddr_eq]
    · have hattrib := p.toNat_attribFetch c
      rw [p.attribAddr_eq] at hattrib
      rw [h.nextTileAttrib]
      dsimp only
      rw [← hattrib]
      exact apply_ite BitVec.toNat _ _ _
    · rw [h.nextTileLsb, hpattern]
    · rw [h.nextTileMsb, hpattern8]

/-! ## `v` across a dot -/

theorem Ppu.vAfter_of_not_rendering {p : Ppu} (h : p.rendering = false) : p.vAfter = p.v := by
  have hno : ¬ p.rendering = true := by rw [h]; decide
  rw [Ppu.vAfter, if_neg fun e => hno e.2]
  exact if_neg hno

theorem Ppu.vAfter_of_rendering {p : Ppu} (h : p.rendering = true) :
    p.vAfter =
      if p.cycle = 256 then nextRow (if InSlot p 7 then nextColumn p.v else p.v)
      else if p.cycle = 257 then withHorizontal (if InSlot p 7 then nextColumn p.v else p.v) p.t
      else if p.scanline = -1 ∧ 280 ≤ p.cycle ∧ p.cycle ≤ 304 then
        withVertical (if InSlot p 7 then nextColumn p.v else p.v) p.t
      else if InSlot p 7 then nextColumn p.v else p.v := by
  rw [Ppu.vAfter]
  simp only [h, and_true]
  exact if_pos h

/-- The dots that move `v` at all. -/
theorem Ppu.vAfter_of_quiet {p : Ppu} (column : ¬ InSlot p 7) (h257 : p.cycle ≠ 257)
    (vertical : ¬ (p.scanline = -1 ∧ 280 ≤ p.cycle ∧ p.cycle ≤ 304)) : p.vAfter = p.v := by
  cases h : p.rendering with
  | false => exact Ppu.vAfter_of_not_rendering h
  | true =>
    have h256 : p.cycle ≠ 256 := fun e => column ⟨by omega, by omega⟩
    rw [Ppu.vAfter_of_rendering h, if_neg h256, if_neg h257, if_neg vertical, if_neg column]

theorem Ppu.vAfter_of_column {p : Ppu} (h : p.rendering = true) (column : InSlot p 7) :
    p.vAfter = if p.cycle = 256 then nextRow (nextColumn p.v) else nextColumn p.v := by
  obtain ⟨window, slot⟩ := id column
  rw [Ppu.vAfter_of_rendering h, if_pos column, if_neg (show ¬ p.cycle = 257 by omega),
    if_neg (show ¬ (p.scanline = -1 ∧ 280 ≤ p.cycle ∧ p.cycle ≤ 304) by omega)]

theorem Ppu.vAfter_of_horizontal {p : Ppu} (h : p.rendering = true) (h257 : p.cycle = 257) :
    p.vAfter = withHorizontal p.v p.t := by
  rw [Ppu.vAfter_of_rendering h, if_neg (by omega), if_pos h257, if_neg fun e => by have := e.2; omega]

theorem Ppu.vAfter_of_vertical {p : Ppu} (h : p.rendering = true)
    (vertical : p.scanline = -1 ∧ 280 ≤ p.cycle ∧ p.cycle ≤ 304) : p.vAfter = withVertical p.v p.t := by
  rw [Ppu.vAfter_of_rendering h, if_neg (by omega), if_neg (by omega), if_pos vertical,
    if_neg fun e => by have := e.1; omega]

/-- The step of a column moves no row. -/
theorem nextColumn_row (v : BitVec 15) :
    tileColumn (nextColumn v) = (tileColumn v + 1) % 64 ∧ tileRow (nextColumn v) = tileRow v ∧
      lowerHalf (nextColumn v) = lowerHalf v ∧ pixelRow (nextColumn v) = pixelRow v := by
  obtain ⟨cx, nx, hparts, hcolumn⟩ := nextColumn_parts v
  have hv := Parts.of v
  exact ⟨hparts.tileColumn.trans hcolumn, hparts.tileRow.trans hv.tileRow.symm,
    hparts.lowerHalf.trans hv.lowerHalf.symm, hparts.pixelRow.trans hv.pixelRow.symm⟩

/-- The step of a row moves no column. -/
theorem nextRow_row (v : BitVec 15) :
    tileColumn (nextRow v) = tileColumn v ∧
      (tileRow v < 30 → tileRow (nextRow v) < 30 ∧
        lowerHalf (nextRow v) * 240 + pixelRow (nextRow v) = (lowerHalf v * 240 + pixelRow v + 1) % 480) ∧
      (30 ≤ tileRow v → lowerHalf (nextRow v) = lowerHalf v ∧ pixelRow (nextRow v) = (pixelRow v + 1) % 256) := by
  obtain ⟨cy, fy, ny, hparts, upper, lower⟩ := nextRow_parts v
  rw [hparts.tileRow, hparts.lowerHalf, hparts.pixelRow]
  exact ⟨hparts.tileColumn.trans (Parts.of v).tileColumn.symm, upper, lower⟩

/-- Settles O52: the background's registers by `ppuTick_background`, and `v` by the parts of its four steps. -/
theorem videoAddressFollowsTheDots : Obligations.VideoAddressFollowsTheDots := by
  intro p c v' window column vertical stepsRow keepsRow
  have off (line : ¬ OnFetchLine p) : Ppu.SameBackground p (ppuTick p c).1 := by
    have same := ppuTick_sameBackground p c
    rwa [Ppu.linePhase_of_not_line c line] at same
  have hv (line : OnFetchLine p) : v' = p.vAfter := (ppuTick_background c line).v
  refine ⟨fun line => (ppuTick_background c line).stepped, fun line => (off line).kept, fun quiet => ?_,
    fun line rendering => ⟨fun hcolumn => ?_, fun h257 => ?_, fun hvertical => ?_⟩⟩
  · by_cases line : OnFetchLine p
    · rw [hv line]
      obtain h | h | ⟨hcolumn, h257, hvertical⟩ := quiet
      · exact absurd line h
      · exact Ppu.vAfter_of_not_rendering h
      · exact Ppu.vAfter_of_quiet hcolumn h257 hvertical
    · exact (off line).v
  · have hstep : v' = _ := (hv line).trans (Ppu.vAfter_of_column rendering hcolumn)
    obtain ⟨hcol, hrow, hhalf, hpixel⟩ := nextColumn_row p.v
    by_cases h256 : p.cycle = 256
    · obtain ⟨ncol, nrow⟩ := nextRow_row (nextColumn p.v)
      rw [if_pos h256] at hstep
      rw [hrow, hhalf, hpixel, ← hstep] at nrow
      rw [← hstep] at ncol
      exact ⟨ncol.trans hcol, fun _ => nrow, fun h => absurd h256 h⟩
    · rw [if_neg h256] at hstep
      rw [← hstep] at hcol hhalf hpixel
      exact ⟨hcol, fun h => absurd h h256, fun _ => ⟨hhalf, hpixel⟩⟩
  · have hstep : v' = _ := (hv line).trans (Ppu.vAfter_of_horizontal rendering h257)
    have hparts := withHorizontal_parts p.v p.t
    have parts := Parts.of p.v
    rw [← hstep] at hparts
    exact ⟨hparts.tileColumn.trans (Parts.of p.t).tileColumn.symm, hparts.lowerHalf.trans parts.lowerHalf.symm,
      hparts.pixelRow.trans parts.pixelRow.symm⟩
  · have hstep : v' = _ := (hv line).trans (Ppu.vAfter_of_vertical rendering hvertical)
    have hparts := withVertical_parts p.v p.t
    have parts := Parts.of p.t
    rw [← hstep] at hparts
    exact ⟨hparts.tileColumn.trans (Parts.of p.v).tileColumn.symm, hparts.lowerHalf.trans parts.lowerHalf.symm,
      hparts.pixelRow.trans parts.pixelRow.symm⟩

end Sys2Proof.Machine

/-! 63_apu R452 to R460: what a write of each APU register sets. -/

namespace Sys2Proof.Machine

open Sys2Proof.Claims

theorem toNat_field_low (d : Byte) (len : Nat) : (field d 0 len).toNat = d.toNat % 2 ^ len := by
  rw [toNat_field, pow_zero, Nat.div_one]

theorem dutyPattern_eq (d : Byte) : dutyPattern (field d 6 2) = [0x40, 0x60, 0x78, 0x9F].getD (d.toNat / 64) 0 := by
  revert d; decide

theorem lengthOf_eq (d : Byte) : lengthOf d = lengths.getD (d.toNat / 8) 0 := by
  have hd := d.isLt
  have hindex : (field d 3 5).toNat = d.toNat / 8 := by rw [toNat_field]; omega
  rw [lengthOf, hindex]
  rfl

theorem noisePeriods_eq (d : Byte) : noisePeriods.getD (field d 0 4).toNat 0 = noisePeriod.getD (d.toNat % 16) 0 := by
  rw [toNat_field_low]
  rfl

/-- The period's high bits are replaced, its low byte kept (63_apu R455). -/
theorem toNat_periodHigh (w : Word) (d : Byte) :
    ((field d 0 3).setWidth 16 <<< 8 ||| (w &&& 0x00FF) : Word).toNat = d.toNat % 8 * 256 + w.toNat % 256 := by
  have hlow : (w &&& 0x00FF : Word).toNat = w.toNat % 256 := toNat_and_mask w _ 8 rfl
  have hhigh : ((field d 0 3).setWidth 16 <<< 8 : Word).toNat = d.toNat % 8 * 256 := by
    rw [BitVec.toNat_shiftLeft, BitVec.toNat_setWidth, toNat_field, Nat.shiftLeft_eq]
    omega
  rw [toNat_or_of_lt 8 (by omega) (by omega), hlow, hhigh]

theorem Pulse.write0_written (p : Pulse) (d : Byte) : PulseWritten p (p.write0 d) 0 d :=
  ⟨rfl, toNat_field_low d 4, dutyPattern_eq d⟩

theorem Pulse.write1_written (p : Pulse) (d : Byte) : PulseWritten p (p.write1 d) 1 d :=
  ⟨rfl, toNat_field d 4 3, toNat_field_low d 3⟩

theorem Pulse.write2_written (p : Pulse) (d : Byte) : PulseWritten p (p.write2 d) 2 d :=
  ⟨rfl, toNat_loadLow p.sequencer.reload d⟩

theorem Pulse.write3_written (p : Pulse) (d : Byte) : PulseWritten p (p.write3 d) 3 d :=
  ⟨rfl, toNat_periodHigh p.sequencer.reload d, lengthOf_eq d⟩

theorem memWrite_apu (s : State) {a : Word} (d : Byte) (h : (0x4000 ≤ a ∧ a ≤ 0x4013) ∨ a = 0x4015) :
    memWrite s a d = { s with apu := s.apu.regWrite a d } := by
  rw [memWrite_below s d (by bv_omega), busWrite, if_neg (by bv_omega), if_neg (by bv_omega), if_pos (by bv_omega)]

/-- Settles O59, register by register. -/
theorem apuRegistersByAddress : Obligations.ApuRegistersByAddress := by
  intro s a d range u n
  have hu : u = { s with apu := s.apu.regWrite a d } := memWrite_apu s d range
  have haddr (k : Nat) (hn : n = k) : a = BitVec.ofNat 16 (0x4000 + k) := by
    have lo : 0x4000 ≤ a.toNat := by bv_omega
    apply BitVec.eq_of_toNat_eq
    have := a.isLt
    rw [BitVec.toNat_ofNat]
    omega
  have at_register (k : Nat) (hn : n = k) : u = { s with apu := s.apu.regWrite (BitVec.ofNat 16 (0x4000 + k)) d } := by
    rw [hu, haddr k hn]
  refine ⟨fun hn => ?_, fun ⟨lo, hi⟩ => ?_, fun hn => ?_, fun hn => ?_, fun hn => ?_, fun hn => ?_, fun hn => ?_⟩
  · obtain h | h | h | h : n = 0 ∨ n = 1 ∨ n = 2 ∨ n = 3 := by omega
    all_goals rw [h, at_register _ h]
    · exact ⟨Pulse.write0_written _ d, rfl⟩
    · exact ⟨Pulse.write1_written _ d, rfl⟩
    · exact ⟨Pulse.write2_written _ d, rfl⟩
    · exact ⟨Pulse.write3_written _ d, rfl⟩
  · obtain h | h | h | h : n = 4 ∨ n = 5 ∨ n = 6 ∨ n = 7 := by omega
    all_goals rw [h, at_register _ h]
    · exact ⟨Pulse.write0_written _ d, rfl⟩
    · exact ⟨Pulse.write1_written _ d, rfl⟩
    · exact ⟨Pulse.write2_written _ d, rfl⟩
    · exact ⟨Pulse.write3_written _ d, rfl⟩
  · simp only [List.mem_cons, List.not_mem_nil, or_false] at hn
    obtain h | h | h | h | h | h | h | h | h := hn
    all_goals exact at_register _ h
  · exact ⟨field d 0 4, toNat_field_low d 4, at_register _ hn⟩
  · rw [at_register _ hn, ← noisePeriods_eq]; rfl
  · rw [at_register _ hn, ← lengthOf_eq]; rfl
  · exact at_register _ hn

end Sys2Proof.Machine

/-! 63_apu R450 to R480: the APU's units, their step, and the pacing of the mix. -/

namespace Sys2Proof.Machine

open Sys2Proof.Claims

/-! ## The envelope and the length counter (R470, R471) -/

theorem Envelope.clock_clocked (loop : Bool) (e : Envelope) : EnvelopeClocked loop e (e.clock loop) := by
  unfold Envelope.clock
  by_cases start : e.start = true
  · have hno : e.start ≠ false := by rw [start]; decide
    simp only [if_pos start]
    exact ⟨⟨rfl, rfl, rfl⟩, fun _ => ⟨rfl, rfl⟩, fun h => absurd h hno, fun h => absurd h hno, rfl⟩
  · have hstart : e.start = false := Bool.eq_false_iff.mpr start
    by_cases divider : e.divider = 0
    · simp only [if_neg start, if_pos divider]
      refine ⟨⟨rfl, rfl, hstart⟩, fun h => absurd h start, fun _ _ => ⟨rfl, ?_⟩, fun _ h => absurd divider h, rfl⟩
      by_cases decay : e.decay = 0
      · rw [if_pos decay, if_pos decay]; cases loop <;> rfl
      · rw [if_neg decay, if_neg decay]; bv_omega
    · simp only [if_neg start, if_neg divider]
      refine ⟨⟨rfl, rfl, hstart⟩, fun h => absurd h start, fun _ h => absurd h divider, fun _ _ => ⟨rfl, ?_⟩, rfl⟩
      bv_omega

/-- The divider counts down to 0, the decay standing still. -/
theorem times_clock_counts (loop : Bool) {e : Envelope} (start : e.start = false) (divider : e.divider = e.volume)
    {k : Nat} (hk : k ≤ e.volume.toNat) :
    let f := times (fun x => x.clock loop) k e
    f.start = false ∧ f.decay = e.decay ∧ f.disable = e.disable ∧ f.volume = e.volume ∧
      f.divider.toNat = e.volume.toNat - k := by
  induction k with
  | zero => exact ⟨start, rfl, rfl, rfl, congrArg BitVec.toNat divider⟩
  | succ k ih =>
    obtain ⟨fstart, fdecay, fdisable, fvolume, fdivider⟩ := ih (by omega)
    rw [times_succ]
    have hclock := (times (fun x => x.clock loop) k e).clock_clocked loop
    obtain ⟨hdisable, hvolume, hstart⟩ := hclock.kept
    obtain ⟨hdecay, hdivider⟩ := hclock.counts fstart (fun h => by rw [h] at fdivider; simp at fdivider; omega)
    exact ⟨hstart, hdecay.trans fdecay, hdisable.trans fdisable, hvolume.trans fvolume, by omega⟩

/-- The decay falls by one in `volume + 1` clocks. -/
theorem times_clock_decays (loop : Bool) {e : Envelope} (start : e.start = false) (divider : e.divider = e.volume)
    (decay : 0 < e.decay) :
    let f := times (fun x => x.clock loop) (e.volume.toNat + 1) e
    f.decay.toNat = e.decay.toNat - 1 ∧ f.divider = e.volume ∧ f.start = false ∧
      f.output = if e.disable then e.volume else f.decay := by
  obtain ⟨fstart, fdecay, fdisable, fvolume, fdivider⟩ := times_clock_counts loop start divider (Nat.le_refl _)
  rw [times_succ]
  have hclock := (times (fun x => x.clock loop) e.volume.toNat e).clock_clocked loop
  obtain ⟨-, -, hstart⟩ := hclock.kept
  obtain ⟨hdivider, hdecay⟩ := hclock.reloads fstart (BitVec.eq_of_toNat_eq (by rw [fdivider, Nat.sub_self]; rfl))
  have houtput := hclock.output
  rw [fdecay, if_neg (by bv_omega)] at hdecay
  rw [fdisable, fvolume] at houtput
  exact ⟨hdecay, hdivider.trans fvolume, hstart, houtput⟩

theorem toNat_lengthClock (enable halt : Bool) (n : Byte) :
    (lengthClock enable halt n).toNat = lengthAfter enable halt n.toNat := by
  cases enable with
  | false => rfl
  | true =>
    cases halt with
    | true => simp [lengthClock, lengthAfter]
    | false =>
      change (if 0 < n ∧ false = false then n - 1 else n).toNat = n.toNat - 1
      by_cases h : 0 < n
      · rw [if_pos ⟨h, rfl⟩]; bv_omega
      · rw [if_neg fun e => h e.1]; bv_omega

/-! ## The sequencers (R465, R475) -/

theorem toNat_rotated (s : BitVec 32) :
    (((s &&& 1) <<< 7) ||| ((s &&& 0xFE) >>> 1) : BitVec 32).toNat = s.toNat % 2 * 128 + s.toNat % 256 / 2 := by
  have hlow : (s &&& 1 : BitVec 32).toNat = s.toNat % 2 := toNat_and_mask s _ 1 rfl
  have hhigh : ((s &&& 0xFE) >>> 1 : BitVec 32) = ((s &&& 0xFF) >>> 1 : BitVec 32) := by
    apply BitVec.eq_of_getLsbD_eq
    intro i hi
    interval_cases i <;> simp
  have hmask : (s &&& 0xFF : BitVec 32).toNat = s.toNat % 256 := toNat_and_mask s _ 8 rfl
  have htop : ((s &&& 1) <<< 7 : BitVec 32).toNat = s.toNat % 2 * 128 := by
    rw [BitVec.toNat_shiftLeft, hlow, Nat.shiftLeft_eq]; omega
  have hrest : ((s &&& 0xFF) >>> 1 : BitVec 32).toNat = s.toNat % 256 / 2 := by
    rw [BitVec.toNat_ushiftRight, hmask, Nat.shiftRight_eq_div_pow]
  rw [hhigh, toNat_or_of_lt 7 (by omega) (by omega), htop, hrest]

/-- The feedback bit of the noise register (63_apu R475). -/
def noiseFeedback (s : BitVec 32) : BitVec 32 := (s &&& 1#32) ^^^ ((s &&& 2#32) >>> 1)

theorem lfsrNext_eq (s : BitVec 32) : lfsrNext s = (noiseFeedback s <<< 14) ||| (s >>> 1) := rfl

theorem noiseFeedback_eq (s : BitVec 32) : noiseFeedback s = BitVec.ofNat 32 ((s.toNat + s.toNat / 2) % 2) := by
  have hsecond : (s &&& 2#32) >>> 1 = (s >>> 1) &&& 1#32 := by
    apply BitVec.eq_of_getLsbD_eq
    intro i hi
    interval_cases i <;> simp
  have h0 : (s &&& 1#32).toNat = s.toNat % 2 := toNat_and_mask s _ 1 rfl
  have h1 : ((s >>> 1) &&& 1#32).toNat = s.toNat / 2 % 2 := by
    rw [toNat_and_mask _ _ 1 rfl, BitVec.toNat_ushiftRight, Nat.shiftRight_eq_div_pow]
    rfl
  apply BitVec.eq_of_toNat_eq
  rw [noiseFeedback, hsecond, BitVec.toNat_xor, h0, h1, BitVec.toNat_ofNat]
  obtain h | h : s.toNat % 2 = 0 ∨ s.toNat % 2 = 1 := by omega
  all_goals
    obtain h' | h' : s.toNat / 2 % 2 = 0 ∨ s.toNat / 2 % 2 = 1 := by omega
    all_goals
      rw [h, h']
      simp only [Nat.zero_xor, Nat.xor_zero, Nat.xor_self]
      omega

/-- An or with one bit is a sum, unless the bit was set. -/
theorem toNat_or_twoPow {w : Nat} (x : BitVec w) {k : Nat} (hk : k < w) :
    (BitVec.twoPow w k ||| x).toNat = x.toNat + if x.getLsbD k then 0 else 2 ^ k := by
  cases h : x.getLsbD k with
  | true =>
    have hset : BitVec.twoPow w k ||| x = x := by
      apply BitVec.eq_of_getLsbD_eq
      intro i hi
      rw [BitVec.getLsbD_or, BitVec.getLsbD_twoPow]
      by_cases hik : k = i
      · subst hik; rw [h, Bool.or_true]
      · simp [hik]
    rw [hset]; rfl
  | false =>
    have hclear : BitVec.twoPow w k &&& x = 0#w := by
      apply BitVec.eq_of_getLsbD_eq
      intro i hi
      rw [BitVec.getLsbD_and, BitVec.getLsbD_twoPow, BitVec.getLsbD_zero]
      by_cases hik : k = i
      · subst hik; rw [h, Bool.and_false]
      · simp [hik]
    rw [← BitVec.add_eq_or_of_and_eq_zero _ _ hclear, BitVec.toNat_add_of_and_eq_zero hclear, BitVec.toNat_twoPow,
      Nat.mod_eq_of_lt (Nat.pow_lt_pow_right (by decide) hk), Nat.add_comm]
    rfl

/-- The feedback enters at bit 14, which is not free when bit 15 was set. -/
theorem toNat_lfsrNext (s : BitVec 32) :
    (lfsrNext s).toNat = s.toNat / 2 + (if s.getLsbD 15 then 0 else (s.toNat + s.toNat / 2) % 2 * 2 ^ 14) := by
  have hs := s.isLt
  have hhalf : (s >>> 1).toNat = s.toNat / 2 := by rw [BitVec.toNat_ushiftRight, Nat.shiftRight_eq_div_pow, pow_one]
  rw [lfsrNext_eq, noiseFeedback_eq]
  obtain h | h : (s.toNat + s.toNat / 2) % 2 = 0 ∨ (s.toNat + s.toNat / 2) % 2 = 1 := by omega
  · have hzero : (BitVec.ofNat 32 0 <<< 14) ||| (s >>> 1) = s >>> 1 := by simp
    rw [h, hzero, hhalf, Nat.zero_mul, ite_self, Nat.add_zero]
  · have hbit : (s >>> 1).getLsbD 14 = s.getLsbD 15 := BitVec.getLsbD_ushiftRight _ _ _
    have hpow : BitVec.ofNat 32 1 <<< 14 = BitVec.twoPow 32 14 := rfl
    rw [h, hpow, toNat_or_twoPow _ (by decide), hhalf, hbit, Nat.one_mul]

theorem lfsrNext_lt {x : BitVec 32} (h : x.toNat < 2 ^ 16) : (lfsrNext x).toNat < 2 ^ 15 := by
  have hbit := ite_getLsbD_eq x 15
  rw [toNat_lfsrNext]
  cases hx : x.getLsbD 15 with
  | true => simp only [if_true]; omega
  | false =>
    rw [hx] at hbit
    simp only [Bool.false_eq_true, if_false] at hbit ⊢
    omega

theorem sub_one_eq_max_iff (w : Word) : w - 1 = 0xFFFF ↔ w = 0 := by bv_omega

theorem Pulse.seqClock_of_silent {p : Pulse} (h : p.enable = false) : p.seqClock = p := by
  rw [Pulse.seqClock, h]; rfl

theorem Pulse.seqClock_of_runs {p : Pulse} (h : p.enable = true) (timer : p.sequencer.timer ≠ 0) :
    p.seqClock = { p with sequencer := { p.sequencer with timer := p.sequencer.timer - 1 } } := by
  rw [Pulse.seqClock, if_pos h]
  exact if_neg (mt (sub_one_eq_max_iff _).mp timer)

/-- The duty pattern after one step (63_apu R465). -/
def rotated (s : BitVec 32) : BitVec 32 := ((s &&& 1) <<< 7) ||| ((s &&& 0xFE) >>> 1)

theorem Pulse.seqClock_of_rotates {p : Pulse} (h : p.enable = true) (timer : p.sequencer.timer = 0) :
    p.seqClock =
      { p with sequencer := { p.sequencer with
          timer := p.sequencer.reload
          sequence := rotated p.sequencer.sequence
          output := (rotated p.sequencer.sequence).getLsbD 0 } } := by
  rw [Pulse.seqClock, if_pos h]
  exact if_pos ((sub_one_eq_max_iff _).mpr timer)

/-- The sequencer's clock writes the sequencer only, and not its period. -/
theorem Pulse.seqClock_frame (p : Pulse) :
    p.seqClock = { p with sequencer := p.seqClock.sequencer } ∧ p.seqClock.sequencer.reload = p.sequencer.reload := by
  obtain h | h := Bool.eq_false_or_eq_true p.enable
  · by_cases timer : p.sequencer.timer = 0
    · rw [Pulse.seqClock_of_rotates h timer]; exact ⟨rfl, rfl⟩
    · rw [Pulse.seqClock_of_runs h timer]; exact ⟨rfl, rfl⟩
  · rw [Pulse.seqClock_of_silent h]; exact ⟨rfl, rfl⟩

theorem Noise.seqClock_of_silent {n : Noise} (h : n.enable = false) : n.seqClock = n := by
  rw [Noise.seqClock, h]; rfl

theorem Noise.seqClock_of_runs {n : Noise} (h : n.enable = true) (timer : n.sequencer.timer ≠ 0) :
    n.seqClock = { n with sequencer := { n.sequencer with timer := n.sequencer.timer - 1 } } := by
  rw [Noise.seqClock, if_pos h]
  exact if_neg (mt (sub_one_eq_max_iff _).mp timer)

theorem Noise.seqClock_of_shifts {n : Noise} (h : n.enable = true) (timer : n.sequencer.timer = 0) :
    n.seqClock =
      { n with sequencer := { n.sequencer with
          timer := n.sequencer.reload
          sequence := lfsrNext n.sequencer.sequence
          output := (lfsrNext n.sequencer.sequence).getLsbD 0 } } := by
  rw [Noise.seqClock, if_pos h]
  exact if_pos ((sub_one_eq_max_iff _).mpr timer)

theorem Noise.seqClock_frame (n : Noise) : n.seqClock = { n with sequencer := n.seqClock.sequencer } := by
  obtain h | h := Bool.eq_false_or_eq_true n.enable
  · by_cases timer : n.sequencer.timer = 0
    · rw [Noise.seqClock_of_shifts h timer]
    · rw [Noise.seqClock_of_runs h timer]
  · rw [Noise.seqClock_of_silent h]

/-! ## The sweep (R467, R468) -/

theorem mutedReload_iff (w : Word) : mutedReload w = true ↔ Mutes w := by
  rw [mutedReload, Bool.or_eq_true, decide_eq_true_eq, decide_eq_true_eq]
  exact Iff.rfl

theorem Pulse.toNat_change (p : Pulse) :
    p.trackSweep.sweeper.change.toNat = p.sequencer.reload.toNat / 2 ^ p.sweeper.shift.toNat := by
  change (p.sequencer.reload >>> p.sweeper.shift.toNat).toNat = _
  rw [BitVec.toNat_ushiftRight, Nat.shiftRight_eq_div_pow]

/-- The conditions under which a half frame changes the period, as numbers. -/
def SweepsPeriod (p : Pulse) : Prop :=
  p.sweeper.timer = 0 ∧ p.sweeper.enabled = true ∧ p.sweeper.shift ≠ 0 ∧ 8 ≤ p.sequencer.reload.toNat ∧
    p.sequencer.reload.toNat ≤ 0x7FF ∧ p.sequencer.reload.toNat / 2 ^ p.sweeper.shift.toNat < 0x7FF

theorem Pulse.sweepActive_iff (p : Pulse) : p.trackSweep.sweepActive = true ↔ SweepsPeriod p := by
  have hmute : p.trackSweep.sweeper.muted = true ↔ Mutes p.sequencer.reload := mutedReload_iff _
  have hchange := p.toNat_change
  have hlt : p.trackSweep.sweeper.change < 0x7FF ↔ p.sequencer.reload.toNat / 2 ^ p.sweeper.shift.toNat < 0x7FF := by
    rw [← hchange]; exact Iff.rfl
  have hshift : 0 < p.sweeper.shift ↔ p.sweeper.shift ≠ 0 := by bv_omega
  have hreload : 8 ≤ p.sequencer.reload ↔ 8 ≤ p.sequencer.reload.toNat := Iff.rfl
  have hquiet : p.trackSweep.sweeper.muted = false ↔ ¬ Mutes p.sequencer.reload := by
    rw [← hmute, Bool.not_eq_true]
  unfold Pulse.sweepActive
  simp only [Bool.and_eq_true, decide_eq_true_eq, Bool.not_eq_true', hquiet, hlt]
  unfold Mutes
  constructor
  · rintro ⟨⟨⟨⟨⟨timer, enabled⟩, muted⟩, shift⟩, reload⟩, change⟩
    exact ⟨timer, enabled, hshift.mp shift, reload, by omega, change⟩
  · rintro ⟨timer, enabled, shift, reload, high, change⟩
    exact ⟨⟨⟨⟨⟨timer, enabled⟩, by omega⟩, hshift.mpr shift⟩, reload⟩, change⟩

/-- The period after a sweep clock (63_apu R467): the change and the channel's correction fit, so nothing wraps. -/
theorem Pulse.sweepClock_reload (p : Pulse) {ch : Nat} (hch : ch ≤ 1) :
    (p.trackSweep.sweepClock (BitVec.ofNat 16 ch)).sequencer.reload = sweptPeriod ch p := by
  have hmodel : (p.trackSweep.sweepClock (BitVec.ofNat 16 ch)).sequencer.reload =
      if p.trackSweep.sweepActive then
        if p.sweeper.down then p.sequencer.reload - (p.trackSweep.sweeper.change + BitVec.ofNat 16 ch)
        else p.sequencer.reload + (p.trackSweep.sweeper.change + BitVec.ofNat 16 ch)
      else p.sequencer.reload := rfl
  rw [hmodel]
  by_cases sweeps : SweepsPeriod p
  · have hspec : sweptPeriod ch p = _ := if_pos sweeps
    obtain ⟨-, -, shift, low, high, -⟩ := id sweeps
    have hchange := p.toNat_change
    have hhalf : p.sequencer.reload.toNat / 2 ^ p.sweeper.shift.toNat ≤ p.sequencer.reload.toNat / 2 := by
      refine Nat.div_le_div_left ?_ (by decide)
      exact Nat.le_self_pow (fun h => shift (BitVec.eq_of_toNat_eq h)) 2
    have hsum : (p.trackSweep.sweeper.change + BitVec.ofNat 16 ch).toNat =
        p.sequencer.reload.toNat / 2 ^ p.sweeper.shift.toNat + ch := by
      rw [BitVec.toNat_add, hchange, BitVec.toNat_ofNat]
      omega
    rw [if_pos (p.sweepActive_iff.mpr sweeps), hspec]
    generalize p.trackSweep.sweeper.change + BitVec.ofNat 16 ch = delta at hsum ⊢
    generalize p.sequencer.reload.toNat / 2 ^ p.sweeper.shift.toNat = change at hsum hhalf ⊢
    cases p.sweeper.down with
    | true =>
      have hint : (p.sequencer.reload.toNat : Int) - (change + ch) =
          ((p.sequencer.reload.toNat - (change + ch) : Nat) : Int) := by omega
      rw [if_pos rfl, if_pos rfl]
      refine BitVec.eq_of_toNat_eq ?_
      rw [hint, BitVec.ofInt_natCast, BitVec.toNat_ofNat, BitVec.toNat_sub]
      omega
    | false =>
      have hint : (p.sequencer.reload.toNat : Int) + (change + ch) =
          ((p.sequencer.reload.toNat + (change + ch) : Nat) : Int) := by omega
      rw [if_neg (by decide), if_neg (by decide)]
      refine BitVec.eq_of_toNat_eq ?_
      rw [hint, BitVec.ofInt_natCast, BitVec.toNat_ofNat, BitVec.toNat_add, hsum]
  · have hno : ¬ p.trackSweep.sweepActive = true := mt p.sweepActive_iff.mp sweeps
    have hspec : sweptPeriod ch p = _ := if_neg sweeps
    rw [if_neg hno, hspec]

/-! ## The step of a channel (R451, R465 to R476) -/

/-- The sweep's part of a step: tracking, and the clock at a half frame. -/
def Pulse.swept (ch : Word) (half : Bool) (p : Pulse) : Pulse :=
  if half then p.trackSweep.sweepClock ch else p.trackSweep

/-- A pulse channel after its envelope, length counter and sweep. -/
def Pulse.clocked (ch : Word) (quarter half : Bool) (p : Pulse) : Pulse :=
  { p with
    envelope := if quarter then p.envelope.clock p.halt else p.envelope
    lengthCounter := if half then lengthClock p.enable p.halt p.lengthCounter else p.lengthCounter
    sweeper := (p.swept ch half).sweeper
    sequencer := (p.swept ch half).sequencer }

/-- A pulse channel after its sequencer and its output. -/
def Pulse.finished (p : Pulse) : Pulse := { p.seqClock with output := p.seqClock.outputNow }

/-- The noise channel after its envelope and length counter. -/
def Noise.clocked (quarter half : Bool) (n : Noise) : Noise :=
  { n with
    envelope := if quarter then n.envelope.clock n.halt else n.envelope
    lengthCounter := if half then lengthClock n.enable n.halt n.lengthCounter else n.lengthCounter }

/-- The noise channel after its sequencer and its output. -/
def Noise.finished (n : Noise) : Noise := { n.seqClock with output := n.seqClock.outputNow }

/-- An APU step, channel by channel (63_apu R451). -/
theorem Apu.step_eq (a : Apu) :
    a.step =
      { a with
        pulse1 := (a.pulse1.clocked 0 (isQuarter (a.frameCounter + 1)) (isHalf (a.frameCounter + 1))).finished
        pulse2 := (a.pulse2.clocked 1 (isQuarter (a.frameCounter + 1)) (isHalf (a.frameCounter + 1))).finished
        noise := (a.noise.clocked (isQuarter (a.frameCounter + 1)) (isHalf (a.frameCounter + 1))).finished
        frameCounter := if a.frameCounter + 1 = 14916 then 0 else a.frameCounter + 1 } := by
  rw [Apu.step]
  cases isQuarter (a.frameCounter + 1) <;> cases isHalf (a.frameCounter + 1) <;> rfl

theorem Pulse.finished_eq (p : Pulse) :
    p.finished = { p with sequencer := p.seqClock.sequencer, output := p.seqClock.outputNow } := by
  rw [Pulse.finished, p.seqClock_frame.1]

theorem Noise.finished_eq (n : Noise) :
    n.finished = { n with sequencer := n.seqClock.sequencer, output := n.seqClock.outputNow } := by
  rw [Noise.finished, n.seqClock_frame]

theorem Pulse.outputNow_iff (p : Pulse) :
    p.outputNow = true ↔ p.sequencer.output = true ∧ p.lengthCounter ≠ 0 ∧ 8 ≤ p.sequencer.timer.toNat ∧
      p.sweeper.muted = false ∧ 2 < p.envelope.output.toNat := by
  have hlength : 0 < p.lengthCounter ↔ p.lengthCounter ≠ 0 := by bv_omega
  unfold Pulse.outputNow
  simp only [Bool.and_eq_true, decide_eq_true_eq, Bool.not_eq_true', hlength, and_assoc]
  exact Iff.rfl

/-- A half frame restarts the sweep's divider at its end or after a write. -/
theorem Pulse.sweepClock_restarts {p : Pulse} (ch : Word) (h : p.sweeper.timer = 0 ∨ p.sweeper.reload = true) :
    (p.trackSweep.sweepClock ch).sweeper.timer = p.sweeper.period ∧
      (p.trackSweep.sweepClock ch).sweeper.reload = false := by
  have restart : (decide (p.sweeper.timer = 0) || p.sweeper.reload) = true := by
    rw [Bool.or_eq_true, decide_eq_true_eq]; exact h
  exact ⟨if_pos restart, if_pos restart⟩

theorem Pulse.sweepClock_counts {p : Pulse} (ch : Word) (timer : p.sweeper.timer ≠ 0) (reload : p.sweeper.reload = false) :
    (p.trackSweep.sweepClock ch).sweeper.timer.toNat = p.sweeper.timer.toNat - 1 ∧
      (p.trackSweep.sweepClock ch).sweeper.reload = false := by
  have restart : ¬ (decide (p.sweeper.timer = 0) || p.sweeper.reload) = true := by
    rw [Bool.or_eq_true, decide_eq_true_eq, reload]; exact not_or.mpr ⟨timer, by decide⟩
  have htimer : (p.trackSweep.sweepClock ch).sweeper.timer = p.sweeper.timer - 1 := if_neg restart
  exact ⟨by rw [htimer]; bv_omega, (if_neg restart).trans reload⟩

/-- What the sweep leaves of a channel's sweeper and sequencer. -/
theorem Pulse.swept_frame (ch : Word) (half : Bool) (p : Pulse) :
    (p.swept ch half).sweeper.change = p.trackSweep.sweeper.change ∧
      (p.swept ch half).sweeper.muted = mutedReload (p.swept ch half).sequencer.reload ∧
      (p.swept ch half).sequencer.timer = p.sequencer.timer ∧
      (p.swept ch half).sequencer.sequence = p.sequencer.sequence := by
  cases half <;> exact ⟨rfl, rfl, rfl, rfl⟩

theorem Pulse.clocked_stepped {ch : Nat} (hch : ch ≤ 1) {iq ih : Bool} {quarter half : Prop} (hq : iq = true ↔ quarter)
    (hh : ih = true ↔ half) (p : Pulse) :
    PulseStepped ch quarter half p (p.clocked (BitVec.ofNat 16 ch) iq ih).finished := by
  have hswept (h : half) : p.swept (BitVec.ofNat 16 ch) ih = p.trackSweep.sweepClock (BitVec.ofNat 16 ch) :=
    if_pos (hh.mpr h)
  have htracked (h : ¬ half) : p.swept (BitVec.ofNat 16 ch) ih = p.trackSweep := if_neg (mt hh.mp h)
  have henvelope (h : quarter) : (p.clocked (BitVec.ofNat 16 ch) iq ih).envelope = p.envelope.clock p.halt :=
    if_pos (hq.mpr h)
  have hlength (h : half) :
      (p.clocked (BitVec.ofNat 16 ch) iq ih).lengthCounter = lengthClock p.enable p.halt p.lengthCounter :=
    if_pos (hh.mpr h)
  obtain ⟨hchange, hmuted, htimer, hsequence⟩ := p.swept_frame (BitVec.ofNat 16 ch) ih
  obtain ⟨hframe, hreload⟩ := (p.clocked (BitVec.ofNat 16 ch) iq ih).seqClock_frame
  have houtput := (p.clocked (BitVec.ofNat 16 ch) iq ih).seqClock.outputNow_iff
  rw [congrArg Pulse.lengthCounter hframe, congrArg Pulse.sweeper hframe, congrArg Pulse.envelope hframe] at houtput
  rw [Pulse.finished_eq]
  exact {
    kept := ⟨rfl, rfl⟩
    clocked := fun h => (henvelope h).symm ▸ p.envelope.clock_clocked p.halt
    notClocked := fun h => if_neg (mt hq.mp h)
    length := fun h => (congrArg BitVec.toNat (hlength h)).trans (toNat_lengthClock _ _ _)
    notLength := fun h => if_neg (mt hh.mp h)
    sweeper := by cases ih <;> rfl
    tracks := by
      refine ⟨(congrArg BitVec.toNat hchange).trans p.toNat_change, ?_⟩
      dsimp only
      rw [hreload]
      exact (Bool.eq_iff_iff.mp hmuted).trans (mutedReload_iff _)
    sweeps := fun h =>
      hreload.trans ((congrArg (fun q => q.sequencer.reload) (hswept h)).trans (p.sweepClock_reload hch))
    restarts := fun h restart => by
      have e := p.sweepClock_restarts (BitVec.ofNat 16 ch) restart
      rwa [← hswept h] at e
    counts := fun h timer reload => by
      have e := p.sweepClock_counts (BitVec.ofNat 16 ch) timer reload
      rwa [← hswept h] at e
    notSwept := fun h =>
      ⟨hreload.trans (congrArg (fun q => q.sequencer.reload) (htracked h)),
        congrArg (fun q => q.sweeper.timer) (htracked h), congrArg (fun q => q.sweeper.reload) (htracked h)⟩
    silent := fun h => by
      have e : (p.clocked (BitVec.ofNat 16 ch) iq ih).seqClock = _ := Pulse.seqClock_of_silent h
      rw [e]
      cases ih <;> rfl
    runs := fun h timer => by
      have e : (p.clocked (BitVec.ofNat 16 ch) iq ih).seqClock = _ :=
        Pulse.seqClock_of_runs h fun e => timer (htimer.symm.trans e)
      rw [e]
      cases ih <;> rfl
    rotates := fun h timer => by
      have e : (p.clocked (BitVec.ofNat 16 ch) iq ih).seqClock = _ :=
        Pulse.seqClock_of_rotates h (htimer.trans timer)
      rw [e, ← hsequence]
      exact ⟨rfl, toNat_rotated _, rfl⟩
    output := houtput }

theorem Noise.outputNow_eq (n : Noise) :
    n.outputNow = if n.lengthCounter ≠ 0 ∧ n.sequencer.output = true then n.envelope.output else 0 := by
  have hlength : 0 < n.lengthCounter ↔ n.lengthCounter ≠ 0 := by bv_omega
  rw [Noise.outputNow]
  exact ite_congr (propext (and_congr_left fun _ => hlength)) (fun _ => rfl) fun _ => rfl

theorem Noise.clocked_stepped {iq ih : Bool} {quarter half : Prop} (hq : iq = true ↔ quarter) (hh : ih = true ↔ half)
    (n : Noise) : NoiseStepped quarter half n (n.clocked iq ih).finished := by
  have henvelope (h : quarter) : (n.clocked iq ih).envelope = n.envelope.clock n.halt := if_pos (hq.mpr h)
  have hlength (h : half) : (n.clocked iq ih).lengthCounter = lengthClock n.enable n.halt n.lengthCounter :=
    if_pos (hh.mpr h)
  have hframe := (n.clocked iq ih).seqClock_frame
  have houtput := (n.clocked iq ih).seqClock.outputNow_eq
  rw [congrArg Noise.lengthCounter hframe, congrArg Noise.envelope hframe] at houtput
  rw [Noise.finished_eq]
  exact {
    kept := ⟨rfl, rfl⟩
    clocked := fun h => (henvelope h).symm ▸ n.envelope.clock_clocked n.halt
    notClocked := fun h => if_neg (mt hq.mp h)
    length := fun h => (congrArg BitVec.toNat (hlength h)).trans (toNat_lengthClock _ _ _)
    notLength := fun h => if_neg (mt hh.mp h)
    silent := fun h => by
      have e : (n.clocked iq ih).seqClock = _ := Noise.seqClock_of_silent h
      rw [e]
      rfl
    runs := fun h timer => by
      have e : (n.clocked iq ih).seqClock = _ := Noise.seqClock_of_runs h timer
      rw [e]
      rfl
    shifts := fun h timer => by
      have e : (n.clocked iq ih).seqClock = _ := Noise.seqClock_of_shifts h timer
      rw [e]
      exact ⟨rfl, rfl, rfl, rfl⟩
    output := houtput }

/-! ## The outputs and the pacing across a step (R480, 61_bus R360) -/

theorem isQuarter_iff (n : Nat) : isQuarter n = true ↔ n = 3729 ∨ n = 7457 ∨ n = 11186 ∨ n = 14916 := by
  simp only [isQuarter, Bool.or_eq_true, beq_iff_eq, or_assoc]

theorem isHalf_iff (n : Nat) : isHalf n = true ↔ n = 7457 ∨ n = 14916 := by
  simp only [isHalf, Bool.or_eq_true, beq_iff_eq]

/-- `t` has the channel outputs, the last sample, the audio time and the configuration of `s`. -/
structure SoundKept (s t : State) : Prop where
  pulse1 : t.apu.pulse1.output = s.apu.pulse1.output
  pulse2 : t.apu.pulse2.output = s.apu.pulse2.output
  noise : t.apu.noise.output = s.apu.noise.output
  audioSample : t.apu.audioSample = s.apu.audioSample
  audioTime : t.audioTime = s.audioTime
  config : t.config = s.config

theorem SoundKept.of_apu {s t : State} (apu : t.apu = s.apu) (audioTime : t.audioTime = s.audioTime)
    (config : t.config = s.config) : SoundKept s t :=
  ⟨by rw [apu], by rw [apu], by rw [apu], by rw [apu], audioTime, config⟩

theorem SoundKept.trans {s t u : State} (h : SoundKept s t) (k : SoundKept t u) : SoundKept s u :=
  ⟨k.pulse1.trans h.pulse1, k.pulse2.trans h.pulse2, k.noise.trans h.noise, k.audioSample.trans h.audioSample,
    k.audioTime.trans h.audioTime, k.config.trans h.config⟩

/-- No register write touches an output. -/
theorem Apu.regWrite_outputs (a : Apu) (addr : Word) (d : Byte) :
    (a.regWrite addr d).pulse1.output = a.pulse1.output ∧ (a.regWrite addr d).pulse2.output = a.pulse2.output ∧
      (a.regWrite addr d).noise.output = a.noise.output ∧ (a.regWrite addr d).audioSample = a.audioSample := by
  unfold Apu.regWrite; split <;> exact ⟨rfl, rfl, rfl, rfl⟩

theorem memWrite_sound (s : State) (a : Word) (v : Byte) : SoundKept s (memWrite s a v) := by
  unfold memWrite
  split
  · exact .of_apu rfl rfl rfl
  · unfold busWrite
    split
    · exact .of_apu rfl rfl rfl
    · split
      · exact .of_apu rfl rfl rfl
      · split
        · obtain ⟨h1, h2, h3, h4⟩ := s.apu.regWrite_outputs a v
          exact ⟨h1, h2, h3, h4, rfl, rfl⟩
        · split
          · exact .of_apu rfl rfl rfl
          · split
            · unfold controllerLatch; split <;> exact .of_apu rfl rfl rfl
            · exact .of_apu rfl rfl rfl

theorem soundKept_slot : SlotClosed SoundKept where
  refl _ := .of_apu rfl rfl rfl
  trans := .trans
  read s a := by rw [memRead_frame]; exact .of_apu rfl rfl rfl
  write := memWrite_sound
  cpu _ _ := .of_apu rfl rfl rfl
  ill _ _ := .of_apu rfl rfl rfl
  dma s := by rw [dmaStep_frame]; exact .of_apu rfl rfl rfl
  fresh _ := .of_apu rfl rfl rfl
  ack _ := .of_apu rfl rfl rfl
  nmi _ := .of_apu rfl rfl rfl

theorem Apu.mix_eq (a : Apu) (g : Config) : a.mix g = mixOf a g := by
  have hunit (b : Bool) (x : Rat) : unit b * x = if b then x else 0 := by cases b <;> simp [unit]
  rw [Apu.mix, mixOf, hunit, hunit]

theorem timePerPpuClock_eq {g : Config} (h : g.speed ≠ 0) : timePerPpuClock g = 1 / (5370000 * g.speed) := if_neg h

theorem timePerSample_eq {g : Config} (h : g.sampleRate ≠ 0) : timePerSample g = 1 / g.sampleRate := if_neg h

/-- An APU tick without a step. -/
theorem Apu.tick_of_not (a : Apu) (h : a.apuClock % 6 ≠ 0) : a.tick = { a with apuClock := a.apuClock + 1 } := by
  rw [Apu.tick, if_neg h]

/-- An APU tick with a step, unit by unit. -/
theorem Apu.tick_of_step (a : Apu) (h : a.apuClock % 6 = 0) (range : a.frameCounter ≤ 14915) :
    let q := a.tick
    let n := a.frameCounter + 1
    let quarter := n = 3729 ∨ n = 7457 ∨ n = 11186 ∨ n = 14916
    let half := n = 7457 ∨ n = 14916
    q.apuClock = a.apuClock + 1 ∧ q.frameCounter = n % 14916 ∧ q.audioSample = a.audioSample ∧
      PulseStepped 0 quarter half a.pulse1 q.pulse1 ∧ PulseStepped 1 quarter half a.pulse2 q.pulse2 ∧
      NoiseStepped quarter half a.noise q.noise := by
  intro q n quarter half
  have hq : q = { a.step with apuClock := a.apuClock + 1 } := by simp only [q]; rw [Apu.tick, if_pos h]
  rw [hq, Apu.step_eq]
  have hquarter := isQuarter_iff (a.frameCounter + 1)
  have hhalf := isHalf_iff (a.frameCounter + 1)
  refine ⟨rfl, ?_, rfl, Pulse.clocked_stepped (by decide) hquarter hhalf _, Pulse.clocked_stepped (by decide) hquarter hhalf _,
    Noise.clocked_stepped hquarter hhalf _⟩
  dsimp only
  split <;> omega

theorem Apu.tick_audioSample (a : Apu) : a.tick.audioSample = a.audioSample := by
  by_cases h : a.apuClock % 6 = 0
  · rw [Apu.tick, if_pos h, Apu.step_eq]
  · rw [a.tick_of_not h]

/-- Settles O60: the units by `Apu.tick_of_step`, the outputs and the pacing by what a slot keeps. -/
theorem apuFrameSequencerClocksItsUnits : Obligations.ApuFrameSequencerClocksItsUnits := by
  refine ⟨Apu.tick_of_not, Apu.tick_of_step, fun e loop => times_clock_decays loop, fun x =>
    ⟨toNat_lfsrNext x, lfsrNext_lt, fun h => by rw [h]; decide⟩, fun s t hstep => ?_⟩
  obtain ⟨-, u, hu, rfl⟩ := step_cases hstep
  have kept := soundKept_slot.slot hu
  refine ⟨kept.pulse1, kept.pulse2, kept.noise, fun speed rate => ?_⟩
  intro time sample
  have htime : paceTime u = time := by
    rw [paceTime, kept.audioTime, kept.config]
    exact congrArg (s.audioTime + ·) (timePerPpuClock_eq speed)
  have hsample : timePerSample u.config = sample := by
    rw [kept.config]
    exact timePerSample_eq rate
  have hdue : paceDue u = decide (sample ≤ time) := by rw [paceDue, htime, hsample]
  have hold : u.apu.audioSample = s.apu.audioSample := kept.audioSample.trans s.apu.tick_audioSample
  have hmix : u.apu.mix u.config = mixOf (endTick u).apu s.config := by rw [Apu.mix_eq, kept.config]; rfl
  have haudio : (endTick u).audioTime = if paceDue u then paceTime u - timePerSample u.config else paceTime u := rfl
  have hlast : (endTick u).apu.audioSample = if paceDue u then u.apu.mix u.config else u.apu.audioSample := rfl
  rw [haudio, hlast, endTick_sampleReady, hdue, htime, hsample, hold, hmix]
  refine ⟨decide_eq_true_iff, ?_, ?_⟩
  · simp only [decide_eq_true_eq]
  · simp only [decide_eq_true_eq]

end Sys2Proof.Machine

/-! 61_bus R350 to R353: the OAM DMA. What every tick of a transfer keeps, and how far the engine is after `d` of its
cycles. -/

namespace Sys2Proof.Machine

open Sys2Proof.Claims

/-- What no tick of a transfer changes. -/
structure TransferKeeps (s u : State) : Prop where
  cpu : u.cpu = s.cpu
  ram : u.ram = s.ram
  config : u.config = s.config
  prg : u.cart.prg = s.cart.prg
  valid : u.cart.valid = s.cart.valid
  map : ∀ ram a, u.cart.cpuMapRead ram a = s.cart.cpuMapRead ram a
  oamAddr : u.ppu.oamAddr = s.ppu.oamAddr
  page : u.dma.page = s.dma.page

theorem TransferKeeps.refl (s : State) : TransferKeeps s s := ⟨rfl, rfl, rfl, rfl, rfl, fun _ _ => rfl, rfl, rfl⟩

theorem TransferKeeps.trans {s t u : State} (h : TransferKeeps s t) (k : TransferKeeps t u) : TransferKeeps s u :=
  ⟨k.cpu.trans h.cpu, k.ram.trans h.ram, k.config.trans h.config, k.prg.trans h.prg, k.valid.trans h.valid,
    fun ram a => (k.map ram a).trans (h.map ram a), k.oamAddr.trans h.oamAddr, k.page.trans h.page⟩

/-- A scanline tick moves no PRG window. -/
theorem Cart.scanlineTick_map (c : Cart) :
    c.scanlineTick.prg = c.prg ∧ c.scanlineTick.valid = c.valid ∧
      ∀ ram a, c.scanlineTick.cpuMapRead ram a = c.cpuMapRead ram a := by
  cases hm : c.mapper with
  | m4 r =>
    have htick : c.scanlineTick = { c with mapper := .m4 r.scanlineTick } := by rw [Cart.scanlineTick, hm]
    refine ⟨by rw [htick], by rw [htick]; simp only [Cart.valid, hm], fun ram a => ?_⟩
    rw [htick]
    simp only [Cart.cpuMapRead, hm]
    rfl
  | m0 | m1 _ | m2 _ =>
    have htick : c.scanlineTick = c := by rw [Cart.scanlineTick, hm]
    rw [htick]
    exact ⟨rfl, rfl, fun _ _ => rfl⟩

theorem ppuTick_oam (p : Ppu) (c : Cart) : (ppuTick p c).1.oam = p.oam ∧ (ppuTick p c).1.oamAddr = p.oamAddr := by
  have kept := Ppu.dot_keeps p c
  rw [ppuTick]
  dsimp only
  rw [Ppu.advance_frame]
  exact ⟨kept.oam, kept.oamAddr⟩

theorem devicesTick_transferKeeps (s : State) : TransferKeeps s (devicesTick s) := by
  have hmap : (devicesTick s).cart.prg = s.cart.prg ∧ (devicesTick s).cart.valid = s.cart.valid ∧
      ∀ ram a, (devicesTick s).cart.cpuMapRead ram a = s.cart.cpuMapRead ram a := by
    rw [devicesTick_cart, ppuTick_cart]
    split
    · exact s.cart.scanlineTick_map
    · exact ⟨rfl, rfl, fun _ _ => rfl⟩
  obtain ⟨prg, valid, map⟩ := hmap
  exact ⟨rfl, rfl, rfl, prg, valid, map, (ppuTick_oam s.ppu s.cart).2, rfl⟩

theorem endTick_transferKeeps (s : State) : TransferKeeps s (endTick s) :=
  ⟨rfl, rfl, rfl, rfl, rfl, fun _ _ => rfl, rfl, rfl⟩

/-! ## The pages without device registers -/

/-- Whether no address of the page is a device's. -/
def PlainPage (page : Byte) : Prop := page < 0x20 ∨ 0x40 < page

theorem toNat_join (hi lo : Byte) : (join hi lo).toNat = hi.toNat * 256 + lo.toNat := by
  have hlo := lo.isLt
  calc (hi ++ lo).toNat
    _ = hi.toNat <<< 8 ||| lo.toNat := BitVec.toNat_append hi lo
    _ = 2 ^ 8 * hi.toNat + lo.toNat := by
      rw [Nat.shiftLeft_eq, Nat.mul_comm hi.toNat (2 ^ 8)]
      exact (Nat.two_pow_add_eq_or_of_lt hlo hi.toNat).symm
    _ = hi.toNat * 256 + lo.toNat := by omega

theorem join_of_plainPage {page : Byte} (h : PlainPage page) (i : Byte) :
    ¬ PpuRange (join page i) ∧ join page i ≠ 0x4016 ∧ join page i ≠ 0x4017 := by
  have hj := toNat_join page i
  have hi := i.isLt
  unfold PlainPage at h
  generalize join page i = a at hj ⊢
  refine ⟨?_, ?_, ?_⟩
  · unfold PpuRange; bv_omega
  · bv_omega
  · bv_omega

theorem not_sideEffect_of_plainPage {page : Byte} (h : PlainPage page) (i : Byte) : ¬ SideEffect (join page i) := by
  obtain ⟨ppu, port0, port1⟩ := join_of_plainPage h i
  rintro (⟨range, -⟩ | e | e)
  · exact ppu range
  · exact port0 e
  · exact port1 e

/-- A page's bytes are those of the start, throughout the transfer. -/
theorem TransferKeeps.peek {s u : State} (h : TransferKeeps s u) (plain : PlainPage s.dma.page) (i : Byte) :
    peek u (join s.dma.page i) = peek s (join s.dma.page i) := by
  obtain ⟨ppu, port0, port1⟩ := join_of_plainPage plain i
  exact peek_congr h.config (fun _ => by rw [h.ram]) (fun range => absurd range ppu) (fun e => absurd e port0)
    (fun e => absurd e port1) h.prg (fun _ => h.map _ _)

/-! ## The engine's cycles -/

/-- Byte `i` of the page that the transfer started from `s` copies. -/
def pageByte (s : State) (i : Nat) : Byte := Machine.peek s (join s.dma.page (BitVec.ofNat 8 i))

/-- The engine after `d` cycles of a transfer that waits for `w` of them and copies in the 512 others (61_bus R351). -/
structure TransferAfter (s : State) (w d : Nat) (u : State) : Prop where
  waits : d < w → u.dma.transfer = true ∧ u.dma.dummy = true ∧ u.dma.addr = 0
  copies : w ≤ d → d < w + 512 → u.dma.transfer = true ∧ u.dma.dummy = false ∧
    u.dma.addr = BitVec.ofNat 8 ((d - w) / 2) ∧ ((d - w) % 2 = 1 → u.dma.data = pageByte s ((d - w) / 2))
  ends : d = w + 512 → u.dma.transfer = false ∧ u.dma.dummy = true
  copied : ∀ i < (d - w) / 2, u.ppu.oam.read i = pageByte s i

theorem TransferAfter.congr {s u v : State} {w d : Nat} (h : TransferAfter s w d u) (dma : v.dma = u.dma)
    (oam : v.ppu.oam = u.ppu.oam) : TransferAfter s w d v := by
  obtain ⟨waits, copies, ends, copied⟩ := h
  rw [← dma] at waits copies ends
  rw [← oam] at copied
  exact ⟨waits, copies, ends, copied⟩

theorem TransferAfter.transfer {s u : State} {w d : Nat} (h : TransferAfter s w d u) (hd : d < w + 512) :
    u.dma.transfer = true := by
  by_cases waiting : d < w
  · exact (h.waits waiting).1
  · exact (h.copies (by omega) hd).1

theorem dmaStep_of_waits {u : State} (dummy : u.dma.dummy = true) (even : u.systemClock % 2 = 0) : dmaStep u = u := by
  rw [dmaStep, if_pos dummy, if_neg (by omega)]

theorem dmaStep_of_aligned {u : State} (dummy : u.dma.dummy = true) (odd : u.systemClock % 2 = 1) :
    dmaStep u = { u with dma := { u.dma with dummy := false } } := by
  rw [dmaStep, if_pos dummy, if_pos odd]

theorem dmaStep_of_reads {u : State} (dummy : u.dma.dummy = false) (even : u.systemClock % 2 = 0)
    (quiet : ¬ SideEffect (join u.dma.page u.dma.addr)) :
    dmaStep u = { u with dma := { u.dma with data := Machine.peek u (join u.dma.page u.dma.addr) } } := by
  rw [dmaStep, if_neg (by rw [dummy]; decide), if_pos even, memRead_quiet u quiet]

theorem dmaStep_of_writes {u : State} (dummy : u.dma.dummy = false) (odd : u.systemClock % 2 = 1) :
    dmaStep u =
      { u with
        ppu := { u.ppu with oam := u.ppu.oam.write u.dma.addr.toNat u.dma.data }
        dma := { u.dma with
          addr := u.dma.addr + 1
          transfer := if u.dma.addr + 1 = 0 then false else u.dma.transfer
          dummy := if u.dma.addr + 1 = 0 then true else u.dma.dummy } } := by
  rw [dmaStep, if_neg (by rw [dummy]; decide), if_neg (by omega)]

section
variable {s u : State} {w d : Nat}

/-- A waiting cycle: the engine leaves its wait at an odd clock. -/
theorem TransferAfter.dmaStep_waits (h : TransferAfter s w d u) (hw : w = 1 ∨ w = 2)
    (clock : (u.systemClock + w) % 2 = d % 2) (hd : d < w) :
    TransferKeeps u (dmaStep u) ∧ TransferAfter s w (d + 1) (dmaStep u) := by
  obtain ⟨transfer, dummy, addr⟩ := h.waits hd
  by_cases last : d + 1 = w
  · rw [dmaStep_of_aligned dummy (by omega)]
    refine ⟨⟨rfl, rfl, rfl, rfl, rfl, fun _ _ => rfl, rfl, rfl⟩, fun _ => by omega, fun _ _ => ?_, fun _ => by omega,
      fun i hi => by omega⟩
    have hzero : d + 1 - w = 0 := by omega
    rw [hzero]
    exact ⟨transfer, rfl, addr, fun odd => by cases odd⟩
  · rw [dmaStep_of_waits dummy (by omega)]
    exact ⟨.refl u, fun _ => ⟨transfer, dummy, addr⟩, fun _ _ => by omega, fun _ => by omega, fun i hi => by omega⟩

/-- A reading cycle latches the next byte of the page. -/
theorem TransferAfter.dmaStep_reads (h : TransferAfter s w d u) (kept : TransferKeeps s u) (plain : PlainPage s.dma.page)
    (hd : w ≤ d) (hd' : d < w + 512) (even : u.systemClock % 2 = 0) (phase : (d - w) % 2 = 0) :
    TransferKeeps u (dmaStep u) ∧ TransferAfter s w (d + 1) (dmaStep u) := by
  obtain ⟨transfer, dummy, addr, -⟩ := h.copies hd hd'
  have hhalf : (d + 1 - w) / 2 = (d - w) / 2 := by omega
  rw [dmaStep_of_reads dummy even (by rw [kept.page]; exact not_sideEffect_of_plainPage plain _)]
  refine ⟨⟨rfl, rfl, rfl, rfl, rfl, fun _ _ => rfl, rfl, rfl⟩, fun _ => by omega, fun _ _ => ?_, fun _ => by omega, ?_⟩
  · rw [hhalf]
    refine ⟨transfer, dummy, addr, fun _ => ?_⟩
    dsimp only
    rw [kept.page, addr, kept.peek plain, pageByte]
  · rw [hhalf]; exact h.copied

/-- A writing cycle stores it, and the 256th ends the transfer. -/
theorem TransferAfter.dmaStep_writes (h : TransferAfter s w d u) (hd : w ≤ d) (hd' : d < w + 512)
    (odd : u.systemClock % 2 = 1) (phase : (d - w) % 2 = 1) :
    TransferKeeps u (dmaStep u) ∧ TransferAfter s w (d + 1) (dmaStep u) := by
  obtain ⟨transfer, dummy, addr, data⟩ := h.copies hd hd'
  have hhalf : (d + 1 - w) / 2 = (d - w) / 2 + 1 := by omega
  have hindex : u.dma.addr.toNat = (d - w) / 2 := by rw [addr, BitVec.toNat_ofNat]; omega
  have hnext : u.dma.addr + 1 = BitVec.ofNat 8 ((d + 1 - w) / 2) := by rw [addr, hhalf, BitVec.ofNat_add]; rfl
  have hlast : u.dma.addr + 1 = 0 ↔ d + 1 = w + 512 := by
    have : (u.dma.addr + 1).toNat = ((d + 1 - w) / 2) % 256 := by rw [hnext, BitVec.toNat_ofNat]
    bv_omega
  rw [dmaStep_of_writes dummy odd]
  refine ⟨⟨rfl, rfl, rfl, rfl, rfl, fun _ _ => rfl, rfl, rfl⟩, fun _ => by omega, fun _ more => ?_, fun last => ?_, ?_⟩
  · have hno : ¬ u.dma.addr + 1 = 0 := by rw [hlast]; omega
    exact ⟨(if_neg hno).trans transfer, (if_neg hno).trans dummy, hnext, fun _ => by omega⟩
  · have hyes := hlast.mpr last
    exact ⟨if_pos hyes, if_pos hyes⟩
  · intro i hi
    dsimp only
    rw [Memory.read_write, hindex]
    by_cases hi' : i = (d - w) / 2
    · rw [if_pos hi', data phase, hi']
    · rw [if_neg hi']; exact h.copied i (by omega)

/-- One cycle of the engine. -/
theorem TransferAfter.dmaStep (h : TransferAfter s w d u) (kept : TransferKeeps s u) (plain : PlainPage s.dma.page)
    (hw : w = 1 ∨ w = 2) (clock : (u.systemClock + w) % 2 = d % 2) (hd : d < w + 512) :
    TransferKeeps u (dmaStep u) ∧ TransferAfter s w (d + 1) (dmaStep u) := by
  by_cases waiting : d < w
  · exact h.dmaStep_waits hw clock waiting
  · obtain phase | phase : (d - w) % 2 = 0 ∨ (d - w) % 2 = 1 := by omega
    · exact h.dmaStep_reads kept plain (by omega) hd (by omega) phase
    · exact h.dmaStep_writes (by omega) hd (by omega) phase

end

/-! ## The ticks of a transfer -/

/-- The machine `k` ticks into a transfer that began at `s`. -/
structure TransferTick (s : State) (w k : Nat) (u : State) : Prop where
  keeps : TransferKeeps s u
  clock : u.systemClock = s.systemClock + k
  after : TransferAfter s w ((k + 2) / 3) u

/-- One tick of a transfer: every third one is a cycle of the engine, the CPU standing still. -/
theorem TransferTick.step {s u : State} {w k : Nat} (h : TransferTick s w k u) (valid : s.cart.valid = true)
    (plain : PlainPage s.dma.page) (hw : w = 1 ∨ w = 2) (aligned : s.systemClock % 3 = 0)
    (parity : (s.systemClock + w) % 2 = 0) (hk : k < 3 * (w + 512)) :
    ∃ v, Machine.step u = .next v ∧ TransferTick s w (k + 1) v := by
  obtain ⟨keeps, clock, after⟩ := h
  have hdevices := keeps.trans (devicesTick_transferKeeps u)
  have hafter : TransferAfter s w ((k + 2) / 3) (devicesTick u) := after.congr rfl (ppuTick_oam u.ppu u.cart).1
  rw [step_of_valid (keeps.valid.trans valid)]
  by_cases slot : k % 3 = 0
  · have hd : (k + 2) / 3 < w + 512 := by omega
    have htransfer : (devicesTick u).dma.transfer = true := hafter.transfer hd
    have hparity : ((devicesTick u).systemClock + w) % 2 = (k + 2) / 3 % 2 := by
      rw [devicesTick_systemClock, clock]; omega
    obtain ⟨dkeeps, dafter⟩ := hafter.dmaStep hdevices plain hw hparity hd
    have hclock : (dmaStep (devicesTick u)).systemClock = s.systemClock + k := by
      rw [dmaStep_frame]; exact clock
    have hnext : (k + 1 + 2) / 3 = (k + 2) / 3 + 1 := by omega
    rw [cpuSlot_of_dma (by rw [devicesTick_systemClock, clock]; omega) htransfer]
    refine ⟨_, rfl, (hdevices.trans dkeeps).trans (endTick_transferKeeps _), ?_, ?_⟩
    · rw [endTick_systemClock, hclock]; rfl
    · rw [hnext]; exact dafter.congr rfl rfl
  · have hsame : (k + 1 + 2) / 3 = (k + 2) / 3 := by omega
    rw [cpuSlot_of_idle (by rw [devicesTick_systemClock, clock]; omega)]
    refine ⟨_, rfl, hdevices.trans (endTick_transferKeeps _), ?_, ?_⟩
    · rw [endTick_systemClock, devicesTick_systemClock, clock]; rfl
    · rw [hsame]; exact hafter.congr rfl rfl

/-- The run of a transfer, tick by tick. -/
theorem run_transfer {s : State} {w : Nat} (valid : s.cart.valid = true) (transfer : s.dma.transfer = true)
    (dummy : s.dma.dummy = true) (addr : s.dma.addr = 0) (plain : PlainPage s.dma.page) (hw : w = 1 ∨ w = 2)
    (aligned : s.systemClock % 3 = 0) (parity : (s.systemClock + w) % 2 = 0) {k : Nat} (hk : k ≤ 3 * (w + 512)) :
    ∃ u, Host.Core.run Sys2Proof.core k s = .next u ∧ TransferTick s w k u := by
  induction k with
  | zero =>
    exact ⟨s, rfl, .refl s, rfl, fun _ => ⟨transfer, dummy, addr⟩, fun _ _ => by omega, fun _ => by omega,
      fun i hi => by omega⟩
  | succ k ih =>
    obtain ⟨u, hrun, hu⟩ := ih (by omega)
    obtain ⟨v, hstep, hv⟩ := hu.step valid plain hw aligned parity (by omega)
    exact ⟨v, (run_succ_of_run hrun).trans hstep, hv⟩

/-- Settles O38: the transfer waits for one or two cycles, by the parity of the clock, and copies in 512. -/
theorem oamDmaCopiesAPage : Obligations.OamDmaCopiesAPage := by
  refine ⟨fun s v => memWrite_below s v (by decide), fun s valid transfer dummy addr aligned plain => ?_⟩
  intro n
  obtain ⟨w, hw, parity, hn⟩ : ∃ w, (w = 1 ∨ w = 2) ∧ (s.systemClock + w) % 2 = 0 ∧ n = w + 512 := by
    by_cases odd : s.systemClock % 2 = 1
    · exact ⟨1, .inl rfl, by omega, if_pos odd⟩
    · exact ⟨2, .inr rfl, by omega, if_neg odd⟩
  have run {k : Nat} (hk : k ≤ 3 * (w + 512)) := run_transfer valid transfer dummy addr plain hw aligned parity hk
  rw [hn]
  refine ⟨fun k hk => ?_, ?_⟩
  · obtain ⟨u, hrun, keeps, -, after⟩ := run (k := k) (by omega)
    exact ⟨u, hrun, after.transfer (by omega), keeps.cpu⟩
  · obtain ⟨t, hrun, keeps, -, after⟩ := run (k := 3 * (w + 512)) (Nat.le_refl _)
    have hend : (3 * (w + 512) + 2) / 3 = w + 512 := by omega
    rw [hend] at after
    obtain ⟨done, ready⟩ := after.ends rfl
    refine ⟨t, hrun, done, ready, keeps.cpu, keeps.ram, keeps.oamAddr, fun i => ?_⟩
    have hi := i.isLt
    have hcopied := after.copied i.toNat (by omega)
    rwa [pageByte, BitVec.ofNat_toNat, BitVec.setWidth_eq] at hcopied

end Sys2Proof.Machine
